-- ==== Sys2Proof/Word.lean ====
section
/-! DEFINITION. The widths of the block (`00_scope.md` R7: BYTE_W, NIBBLE_W, CURSOR_W, ARG_W).
Every value is unsigned (R9). -/

namespace Sys2Proof

/-- An input byte, a slot's content, or an event argument: 8 bits (R7 BYTE_W and ARG_W). -/
abbrev Byte := BitVec 8

/-- A status or channel nibble: 4 bits (R7 NIBBLE_W). -/
abbrev Nibble := BitVec 4

/-- A slot address and the value of the write pointer `cursor`: 1 bit (R7 CURSOR_W, N_DATA). -/
abbrev Slot := BitVec 1

end Sys2Proof
end

