-- ==== Sys2Proof/Config.lean ====
section
/-! DEFINITION. What this hardware fixes (the parameter table of `00_scope.md` R7) and the free values: the
register contents that `10_state.md` R31 and `70_reset_and_hazards.md` R143 leave unspecified. The width
parameters of R7 are the types of `Sys2Proof/Word.lean`. Every run and every instance reads the same free values
(DESIGN CHOICE, log entry 15). -/

namespace Sys2Proof

/-- The two states of the decoder (`10_state.md` R21). -/
inductive DecoderState where
  | idle
  | receivingData
deriving DecidableEq, Repr, Inhabited

/-- The policy for a byte with bit 7 set that arrives in `ReceivingData` (`42_variant_restart.md` R115). -/
inductive StatusMidmsg where
  | absorb
  | restart
deriving DecidableEq, Repr, Inhabited

namespace Config

/-- R7 CLASS_BIT: the bit that classifies a byte. -/
def classBit : Nat := 7

/-- R7 NOTE_ON_CODE: the status nibble that triggers NOTE_ON. -/
def noteOnCode : Nibble := 0x9#4

/-- R7 STATUS_MIDMSG of this hardware (`92_eei_decisions.md` D1). -/
def statusMidmsg : StatusMidmsg := .absorb

/-- R7 RESET_STATE. -/
def resetState : DecoderState := .idle

/-- R7 RESET_CURSOR. -/
def resetCursor : Slot := 0#1

/-- R7 STATE_ENC: the bit that holds `state` (`92_eei_decisions.md` D3). No rule depends on it. -/
def stateCode : DecoderState → BitVec 1
  | .idle => 0
  | .receivingData => 1

/-- Free value: `status` after the n-th RESET (R31, R140, U2; log entries 3 and 4). -/
opaque resetStatus : Nat → Nibble

/-- Free value: `channel` after the n-th RESET (R31, R140, U2; log entries 3 and 4). -/
opaque resetChannel : Nat → Nibble

/-- Free value: `data[0]` after the n-th RESET (R31, R140, U2; log entries 3 and 4). -/
opaque resetData0 : Nat → Byte

/-- Free value: `data[1]` after the n-th RESET (R31, R140, U2; log entries 3 and 4). -/
opaque resetData1 : Nat → Byte

/-- Free value: `state` at power-on, before the first RESET (R143, U8; log entry 5). -/
opaque powerOnState : DecoderState

/-- Free value: `cursor` at power-on (R143, U8; log entry 5). -/
opaque powerOnCursor : Slot

/-- Free value: `status` at power-on (R143, U8; log entry 5). -/
opaque powerOnStatus : Nibble

/-- Free value: `channel` at power-on (R143, U8; log entry 5). -/
opaque powerOnChannel : Nibble

/-- Free value: `data[0]` at power-on (R143, U8; log entry 5). -/
opaque powerOnData0 : Byte

/-- Free value: `data[1]` at power-on (R143, U8; log entry 5). -/
opaque powerOnData1 : Byte

end Config

end Sys2Proof
end

