-- ==== Sys2Proof/Syntax.lean ====
section
/-! DEFINITION. The vocabulary: input elements (`00_scope.md` R4), byte classes (`30_encoding.md` R61), output
events (`00_scope.md` R11), and the operations, one constructor per row of `spec/opcode_table.json`. -/

namespace Sys2Proof

/-- One element of the input sequence (`00_scope.md` R4). -/
inductive Input where
  /-- `Reset`: a cycle with `rst == 1`. -/
  | reset
  /-- `Byte(b)`: a cycle that presents the byte `b`. -/
  | byte (b : Byte)
  /-- `None`: a cycle with no byte. -/
  | noByte
deriving DecidableEq, Repr, Inhabited

/-- The class of a byte (`30_encoding.md` R61). -/
inductive ByteClass where
  | status
  | data
deriving DecidableEq, Repr, Inhabited

/-- An output event; every argument is 8 bits (`00_scope.md` R11). -/
inductive Event where
  | noteOn (channel note velocity : Byte)
  | report (statusNibble channel data0 data1 : Byte)
deriving DecidableEq, Repr, Inhabited

/-- The operations of the block. The first six are selected by the input element together with (`state`, `cursor`)
(`40_process_byte.md` R80); `classify`, `handleMessage`, `noteOn` and `report` run inside one of them;
`rxStatusRestart` is selected under the policy `restart` only. -/
inductive Instr where
  /-- IDLE_STATUS, R82, format S (R62): `b[7:4]` and `b[3:0]`. -/
  | idleStatus (statusNibble channel : Nibble)
  /-- IDLE_DATA, R83, format D (R63): `b[6:0]`, not looked at. -/
  | idleData (payload : BitVec 7)
  /-- RX_DATA0, R84, format X (R64): the whole byte. -/
  | rxData0 (payload : Byte)
  /-- RX_DATA1, R85, format X (R64): the whole byte. -/
  | rxData1 (payload : Byte)
  /-- NONE, R86. -/
  | noByte
  /-- RESET, R140. -/
  | reset
  /-- CLASSIFY, R81: the byte to classify. -/
  | classify (b : Byte)
  /-- HANDLE_MESSAGE, R100. -/
  | handleMessage
  /-- NOTE_ON, R101. -/
  | noteOn
  /-- REPORT, R102. -/
  | report
  /-- RX_STATUS_RESTART, R116, format S (R62): `b[7:4]` and `b[3:0]`. -/
  | rxStatusRestart (statusNibble channel : Nibble)
deriving DecidableEq, Repr, Inhabited

end Sys2Proof
end

