-- ==== Sys2Proof/WellFormed.lean ====
section
/-! DEFINITION. What makes an operation a possible one. The only field constraint of the byte formats is format S's
(`30_encoding.md` R62): the status nibble includes the class bit, so its top bit is 1 and its value is 0x8 to 0xF. -/

namespace Sys2Proof

/-- R62: the status nibble of a format S byte has its most significant bit set. -/
def statusNibbleOk (n : Nibble) : Bool := n.getLsbD 3

/-- An operation whose fields its format admits. -/
def Instr.wellFormed : Instr → Bool
  | .idleStatus n _ => statusNibbleOk n
  | .idleData _ => true
  | .rxData0 _ => true
  | .rxData1 _ => true
  | .noByte => true
  | .reset => true
  | .classify _ => true
  | .handleMessage => true
  | .noteOn => true
  | .report => true
  | .rxStatusRestart n _ => statusNibbleOk n

end Sys2Proof
end

