-- ==== Sys2Proof/Decode.lean ====
section
/-! DEFINITION. Classification, the decode tables (`30_encoding.md` R66 for `absorb`, `42_variant_restart.md` R117 for
`restart`) and the encoder. Decode is total and never fails: no byte value is illegal, reserved or a trap in any state
(R69), so there is nothing to reject. -/

namespace Sys2Proof

/-! ### Fields (R61, R65) -/

/-- CLASSIFY (R61, R81): bit 7 and nothing else. -/
def classOf (b : Byte) : ByteClass := if b.getLsbD Config.classBit then .status else .data

/-- `b[7:4]` (R65). -/
def highNibble (b : Byte) : Nibble := b.extractLsb' 4 4

/-- `b[3:0]` (R65). -/
def lowNibble (b : Byte) : Nibble := b.extractLsb' 0 4

/-- `b[6:0]`, the ignored payload of format D (R63). -/
def lowSeven (b : Byte) : BitVec 7 := b.extractLsb' 0 7

/-! ### The decoder -/

/-- The `Idle` rows of R66 and R117: the only place that consults the class of a byte under `absorb` (R61). -/
def decodeIdle (b : Byte) : Instr :=
  match classOf b with
  | .status => .idleStatus (highNibble b) (lowNibble b)
  | .data => .idleData (lowSeven b)

/-- The `ReceivingData` rows that store a byte: the cursor selects the operation (R66). -/
def decodeSlot (cursor : Slot) (b : Byte) : Instr := if cursor = 0#1 then .rxData0 b else .rxData1 b

/-- The `ReceivingData` rows: R66 (`absorb`: bit 7 not examined) and R117 (`restart`). -/
def decodeReceiving (p : StatusMidmsg) (cursor : Slot) (b : Byte) : Instr :=
  match p with
  | .absorb => decodeSlot cursor b
  | .restart =>
    match classOf b with
    | .status => .rxStatusRestart (highNibble b) (lowNibble b)
    | .data => decodeSlot cursor b

/-- `process_byte`'s dispatch (R80). -/
def decodeByte (p : StatusMidmsg) (st : DecoderState) (cursor : Slot) (b : Byte) : Instr :=
  match st with
  | .idle => decodeIdle b
  | .receivingData => decodeReceiving p cursor b

/-- The operation that one input element performs in a sequencing state (R80). -/
def decode (p : StatusMidmsg) (st : DecoderState) (cursor : Slot) (x : Input) : Instr :=
  match x with
  | .reset => .reset
  | .noByte => .noByte
  | .byte b => decodeByte p st cursor b

/-! ### The encoder -/

/-- The input element that carries an operation; none for the four that run inside another one and are selected by no
element (R72). Formats S, D and X are R62, R63 and R64. -/
def encode : Instr → Option Input
  | .idleStatus n c => some (.byte (n ++ c))
  | .idleData d => some (.byte (0#1 ++ d))
  | .rxData0 b => some (.byte b)
  | .rxData1 b => some (.byte b)
  | .noByte => some .noByte
  | .reset => some .reset
  | .classify _ => none
  | .handleMessage => none
  | .noteOn => none
  | .report => none
  | .rxStatusRestart n c => some (.byte (n ++ c))

/-- The condition of the opcode table's `when` column, beside the byte's pattern: whether an operation is the one to run
under a policy in a sequencing state (R66, R117). -/
def selectedIn (p : StatusMidmsg) (st : DecoderState) (cursor : Slot) : Instr → Bool
  | .idleStatus _ _ => st == .idle
  | .idleData _ => st == .idle
  | .rxData0 b => st == .receivingData && cursor == 0#1 && (p == .absorb || classOf b == .data)
  | .rxData1 b => st == .receivingData && cursor == 1#1 && (p == .absorb || classOf b == .data)
  | .noByte => true
  | .reset => true
  | .classify _ => false
  | .handleMessage => false
  | .noteOn => false
  | .report => false
  | .rxStatusRestart _ _ => st == .receivingData && p == .restart

/-! ### The tables as the spec prints them -/

/-- An operation's name in `spec/opcode_table.json`. -/
def Instr.mnemonic : Instr → String
  | .idleStatus _ _ => "IDLE_STATUS"
  | .idleData _ => "IDLE_DATA"
  | .rxData0 _ => "RX_DATA0"
  | .rxData1 _ => "RX_DATA1"
  | .noByte => "NONE"
  | .reset => "RESET"
  | .classify _ => "CLASSIFY"
  | .handleMessage => "HANDLE_MESSAGE"
  | .noteOn => "NOTE_ON"
  | .report => "REPORT"
  | .rxStatusRestart _ _ => "RX_STATUS_RESTART"

/-- A row of the tables of R66 and R117. `cursor` is absent where the row holds at either value. -/
structure DecodeRow where
  state : DecoderState
  cursor : Option Slot
  mask : Byte
  pattern : Byte
  operation : String
deriving DecidableEq, Repr

/-- A row applies when `(b and mask) == match` and the state columns agree (R66). -/
def DecodeRow.applies (r : DecodeRow) (st : DecoderState) (cursor : Slot) (b : Byte) : Bool :=
  r.state == st && (r.cursor == none || r.cursor == some cursor) && (b &&& r.mask) == r.pattern

/-- The table of R66 (`absorb`) and the table of R117 (`restart`), row by row. -/
def decodeTable : StatusMidmsg → List DecodeRow
  | .absorb =>
    [⟨.idle, some 0, 0x80, 0x80, "IDLE_STATUS"⟩,
     ⟨.idle, some 0, 0x80, 0x00, "IDLE_DATA"⟩,
     ⟨.receivingData, some 0, 0x00, 0x00, "RX_DATA0"⟩,
     ⟨.receivingData, some 1, 0x00, 0x00, "RX_DATA1"⟩]
  | .restart =>
    [⟨.idle, some 0, 0x80, 0x80, "IDLE_STATUS"⟩,
     ⟨.idle, some 0, 0x80, 0x00, "IDLE_DATA"⟩,
     ⟨.receivingData, some 0, 0x80, 0x00, "RX_DATA0"⟩,
     ⟨.receivingData, some 1, 0x80, 0x00, "RX_DATA1"⟩,
     ⟨.receivingData, none, 0x80, 0x80, "RX_STATUS_RESTART"⟩]

/-! ### The opcode table's words -/

/-- The byte a table word stands for; a word that does not fit in one byte is no encoding (R60). -/
def tableByte (nbits w : Nat) : Option Byte :=
  if nbits ≤ 8 ∧ w < 256 then some (BitVec.ofNat 8 w) else none

/-- What the decoder reads from a table word. The byte alone does not select an operation (R60, R66), so it is decoded in
the sequencing state that follows a reset, (`Idle`, 0), under this hardware's policy (log entry 10). -/
def decodeTableWord (nbits w : Nat) : Option Instr :=
  (tableByte nbits w).map fun b => decode Config.statusMidmsg Config.resetState Config.resetCursor (.byte b)

end Sys2Proof
end

