-- ==== Sys2Proof/Machine/State.lean ====
section
/-! DEFINITION. The machine's state: the six registers of `10_state.md` R20, each at the width of R20's table, and four
fields of the model's own that carry the environment of R5 (log entry 1), the supply of free values (log entry 4) and the
phase before the first RESET (log entry 5). -/

namespace Sys2Proof.Machine

/-- The reasons a step can fault: none. `40_process_byte.md` R87: the step function has no fault outcome.
`60_exceptions.md` R120: a model must not add a fault. -/
inductive Fault where
deriving DecidableEq, Repr

/-- The reasons a step can be refused. -/
inductive Refusal where
  /-- An operation with no meaning in `exec`; raised by no arm of this model, since every operation has one. Safe: the
  model would stop where the hardware goes on. -/
  | notModelled (mnemonic : String)
deriving DecidableEq, Repr

/-- The state. The first six fields are the decoder's registers (R20); the last four are not decoder state (R36).
DEDUCED (log entry 14): the widths are those of R20's table and of R21 to R25, which add up to 26 bits, where R20's
sentence says "22 bits in all". -/
structure State where
  /-- `state` (R21). -/
  state : DecoderState
  /-- `cursor`, the write pointer into the slots (R22). -/
  cursor : Slot
  /-- `status`, the status nibble (R23). -/
  status : Nibble
  /-- `channel`, the channel nibble (R24). -/
  channel : Nibble
  /-- `data[0]`, slot 0 (R25). -/
  data0 : Byte
  /-- `data[1]`, slot 1 (R25). -/
  data1 : Byte
  /-- The input elements the environment presents next, the next one first (R4, R12; log entry 1). -/
  pending : List Input
  /-- The events emitted so far, the oldest first (R6, R11; log entry 1). -/
  emitted : List Event
  /-- How many times the payload registers have been left unspecified: the argument of the free values (log entry 4). -/
  freeCount : Nat
  /-- Whether a RESET has taken place since power-on: until then the output ports are unspecified (R143; log entry 5). No
  operation reads it. -/
  resetSeen : Bool
deriving DecidableEq, Repr

/-- The machine right after reset (R31, R140): `Idle`, cursor 0; the four payload registers hold uninterpreted values,
since R31 forbids to assume any (log entry 3); nothing presented and nothing emitted. -/
def State.reset : State where
  state := Config.resetState
  cursor := Config.resetCursor
  status := Config.resetStatus 0
  channel := Config.resetChannel 0
  data0 := Config.resetData0 0
  data1 := Config.resetData1 0
  pending := []
  emitted := []
  freeCount := 1
  resetSeen := true

/-- The machine at power-on, before the first RESET: all six registers and the outputs unspecified (R143; log entry 5).
One set of constants for every run and every instance is the model's choice (DESIGN CHOICE, log entry 15).
So is what the steps between here and the first RESET do: the registers are free at power-on only, and each such step is
the ordinary operation on them, where U8 leaves all state any value throughout (DESIGN CHOICE, log entry 5). -/
def State.powerOn : State where
  state := Config.powerOnState
  cursor := Config.powerOnCursor
  status := Config.powerOnStatus
  channel := Config.powerOnChannel
  data0 := Config.powerOnData0
  data1 := Config.powerOnData1
  pending := []
  emitted := []
  freeCount := 0
  resetSeen := false

end Sys2Proof.Machine
end

