-- ==== Sys2Proof/Machine/Flags.lean ====
section
/-! DEFINITION. There are no flags, condition codes or error bits (`10_state.md` R30). What is tested is tested afresh
in the step that uses it: the class of a byte (`Sys2Proof.classOf`, R61) and the one comparison below (R88, R109). -/

namespace Sys2Proof.Machine

/-- `status == 0x9`, the block's only comparator (`41_handle_message.md` R109). -/
def isNoteOn (status : Nibble) : Bool := status == Config.noteOnCode

end Sys2Proof.Machine
end

