-- ==== Sys2Proof/Machine/Operands.lean ====
section
/-! DEFINITION. Operand forms and widening (`30_encoding.md` R65, `00_scope.md` R9). The operands of HANDLE_MESSAGE and
its actions are registers; a nibble becomes an 8-bit event argument by zero extension (`92_eei_decisions.md` D8). -/

namespace Sys2Proof.Machine

/-- `zext_8` of a nibble (R9, R65): the nibble is in bits 3:0 of the argument. -/
def nibbleArg (n : Nibble) : Byte := n.setWidth 8

/-- `(cursor + 1) mod 2` on the one-bit write pointer (`20_memory.md` R43, R88). -/
def cursorNext (c : Slot) : Slot := c + 1#1

end Sys2Proof.Machine
end

