-- ==== Sys2Proof/Machine/Ops.lean ====
section
/-! DEFINITION. The shared operations: writing the registers, the two slot primitives of `20_memory.md` R41, emitting an
event (`00_scope.md` R11) and the two message actions. There is no exception to take and none to return from
(`60_exceptions.md` R120, R124, R125). -/

namespace Sys2Proof.Machine

/-- `state <- st`. -/
def setState (st : DecoderState) (s : State) : State := { s with state := st }

/-- `cursor <- c`. -/
def setCursor (c : Slot) (s : State) : State := { s with cursor := c }

/-- `status <- n; channel <- c` (R65): the two nibbles are only ever written together (R23, R24). -/
def latchNibbles (n c : Nibble) (s : State) : State := { s with status := n, channel := c }

/-- `MemRead(a, 1)` (R41): the content of slot `a`. -/
def slotRead (s : State) (a : Slot) : Byte := if a = 0#1 then s.data0 else s.data1

/-- `MemWrite(a, 1, v)` (R41): sets slot `a` and leaves the other unchanged. -/
def slotWrite (a : Slot) (v : Byte) (s : State) : State :=
  { s with data0 := if a = 0#1 then v else s.data0, data1 := if a = 0#1 then s.data1 else v }

/-- `emit e` (R11): append to the ordered list of events. -/
def emit (e : Event) (s : State) : State := { s with emitted := s.emitted ++ [e] }

/-- The four payload registers become unspecified (R31, R140): fresh free values, and the counter advances so that the
next draw is another one (log entry 4). That equal counts draw equal values, also in two instances or two runs, is the
model's choice: the spec leaves each register any value of its own (R31, R129; DESIGN CHOICE, log entry 15). -/
def unspecifyPayload (s : State) : State :=
  { s with
    status := Config.resetStatus s.freeCount
    channel := Config.resetChannel s.freeCount
    data0 := Config.resetData0 s.freeCount
    data1 := Config.resetData1 s.freeCount
    freeCount := s.freeCount + 1 }

/-- The phase before the first RESET is over (`70_reset_and_hazards.md` R143; log entry 5). -/
def markReset (s : State) : State := { s with resetSeen := true }

/-- The NOTE_ON action (R101): any status nibble other than 0x9 performs no dispatch. -/
def noteOnAction (s : State) : State :=
  if isNoteOn s.status then emit (.noteOn (nibbleArg s.channel) (slotRead s 0#1) (slotRead s 1#1)) s else s

/-- The REPORT action (R102): fires whatever the status nibble. -/
def reportAction (s : State) : State :=
  emit (.report (nibbleArg s.status) (nibbleArg s.channel) (slotRead s 0#1) (slotRead s 1#1)) s

/-- `handle_message` (R100): `NoteOn` first, `Report` second (R103). Writes no register. -/
def dispatchMessage (s : State) : State := reportAction (noteOnAction s)

/-- The environment presents one more element, before the ones already waiting. -/
def State.present (x : Input) (s : State) : State := { s with pending := x :: s.pending }

/-- The environment's whole remaining input becomes `xs`. -/
def State.withPending (xs : List Input) (s : State) : State := { s with pending := xs }

/-- The element of this step and the state without it: with nothing waiting the cycle carries no byte, which is `None`
(`10_state.md` R34; log entry 2). -/
def nextInput (s : State) : Input :=
  match s.pending with
  | [] => .noByte
  | x :: _ => x

/-- An element is presented once and consumed once (`20_memory.md` R40). -/
def consumeInput (s : State) : State := { s with pending := s.pending.tail }

/-- The operation this step performs (`40_process_byte.md` R80): selected by the registers and the element. -/
def currentInstr (p : StatusMidmsg) (s : State) : Instr := decode p s.state s.cursor (nextInput s)

/-- A table word placed so that the next step runs it (log entry 10): the byte is the next element, and the sequencing
state is the one `decodeTableWord` decodes in. A word that is no byte changes nothing. -/
def placeTableWord (s : State) (nbits w : Nat) : State :=
  match tableByte nbits w with
  | some b => s.present (.byte b) |> setState Config.resetState |> setCursor Config.resetCursor
  | none => s

end Sys2Proof.Machine
end

