-- ==== Sys2Proof/Machine/ByteOps.lean ====
section
/-! DEFINITION. The meanings of the byte operations (`40_process_byte.md`, `42_variant_restart.md`) and of CLASSIFY. Each
is the pseudocode of its rule; which one runs is the decoder's business (log entry 11). -/

namespace Sys2Proof.Machine

/-- IDLE_STATUS (R82). -/
def execIdleStatus (n c : Nibble) (s : State) : Host.Outcome State Fault Refusal :=
  .next (latchNibbles n c s |> setState .receivingData)

/-- IDLE_DATA (R83): the byte is dropped whole. -/
def execIdleData (_payload : BitVec 7) (s : State) : Host.Outcome State Fault Refusal :=
  .next s

/-- RX_DATA0 (R84). -/
def execRxData0 (b : Byte) (s : State) : Host.Outcome State Fault Refusal :=
  .next (slotWrite 0#1 b s |> setCursor (cursorNext 0#1))

/-- RX_DATA1 (R85): the message is dispatched with the byte just stored. -/
def execRxData1 (b : Byte) (s : State) : Host.Outcome State Fault Refusal :=
  .next (slotWrite 1#1 b s |> dispatchMessage |> setCursor (cursorNext 1#1) |> setState .idle)

/-- CLASSIFY (R81): `classOf b`, which reads no state and is never stored, so the state is as before. -/
def execClassify (_b : Byte) (s : State) : Host.Outcome State Fault Refusal :=
  .next s

/-- RX_STATUS_RESTART (R116): the partial message is abandoned without an event. -/
def execRxStatusRestart (n c : Nibble) (s : State) : Host.Outcome State Fault Refusal :=
  .next (latchNibbles n c s |> setCursor 0#1)

end Sys2Proof.Machine
end

