-- ==== Sys2Proof/Machine/Control.lean ====
section
/-! DEFINITION. The meanings of the two operations that no byte selects: NONE (`40_process_byte.md` R86) and RESET
(`70_reset_and_hazards.md` R140). -/

namespace Sys2Proof.Machine

/-- NONE (R86): the hardware holds its state. -/
def execNoByte (s : State) : Host.Outcome State Fault Refusal :=
  .next s

/-- RESET (R140): `state` and `cursor` are written, the payload registers are unspecified afterwards, no event ever; from
here on the outputs are specified (R143). -/
def execReset (s : State) : Host.Outcome State Fault Refusal :=
  .next (unspecifyPayload s |> setState Config.resetState |> setCursor Config.resetCursor |> markReset)

end Sys2Proof.Machine
end

