-- ==== Sys2Proof/Machine/Message.lean ====
section
/-! DEFINITION. The meanings of HANDLE_MESSAGE and its two actions (`41_handle_message.md`). They write no register and
never fail. -/

namespace Sys2Proof.Machine

/-- HANDLE_MESSAGE (R100). -/
def execHandleMessage (s : State) : Host.Outcome State Fault Refusal :=
  .next (dispatchMessage s)

/-- NOTE_ON (R101). -/
def execNoteOn (s : State) : Host.Outcome State Fault Refusal :=
  .next (noteOnAction s)

/-- REPORT (R102). -/
def execReport (s : State) : Host.Outcome State Fault Refusal :=
  .next (reportAction s)

end Sys2Proof.Machine
end

