-- ==== Sys2Proof/Machine/Dispatch.lean ====
section
/-! DEFINITION. The meaning of every operation, one arm each. -/

namespace Sys2Proof.Machine

/-- What an operation does to the state. -/
def exec (i : Instr) (s : State) : Host.Outcome State Fault Refusal :=
  match i with
  | .idleStatus n c => Sys2Proof.Machine.execIdleStatus n c s
  | .idleData d => Sys2Proof.Machine.execIdleData d s
  | .rxData0 b => Sys2Proof.Machine.execRxData0 b s
  | .rxData1 b => Sys2Proof.Machine.execRxData1 b s
  | .noByte => Sys2Proof.Machine.execNoByte s
  | .reset => Sys2Proof.Machine.execReset s
  | .classify b => Sys2Proof.Machine.execClassify b s
  | .handleMessage => Sys2Proof.Machine.execHandleMessage s
  | .noteOn => Sys2Proof.Machine.execNoteOn s
  | .report => Sys2Proof.Machine.execReport s
  | .rxStatusRestart n c => Sys2Proof.Machine.execRxStatusRestart n c s

end Sys2Proof.Machine
end

