-- ==== Sys2Proof/Machine/Step.lean ====
section
/-! DEFINITION. One step (`00_scope.md` R4, `40_process_byte.md` R80): take the next input element, select the operation
by the element and (`state`, `cursor`), perform it. -/

namespace Sys2Proof.Machine

/-- One step under a policy (`42_variant_restart.md` R115). -/
def stepUnder (p : StatusMidmsg) (s : State) : Host.Outcome State Fault Refusal :=
  exec (currentInstr p s) (consumeInput s)

/-- One step of this hardware (R7: `STATUS_MIDMSG = absorb`). -/
def step (s : State) : Host.Outcome State Fault Refusal :=
  stepUnder Config.statusMidmsg s

/-- The state with a table word placed where the next step takes its element (log entry 10). -/
def State.withFetchWord (s : State) (nbits w : Nat) : State := placeTableWord s nbits w

end Sys2Proof.Machine
end

