-- ==== Sys2Proof/Machine/Instances.lean ====
section
/-! DEFINITION. Several decoders (`10_state.md` R38, `60_exceptions.md` R129): each instance owns its own registers, its
own input and its own events, and they do not interact. Whether the unspecified registers of two instances agree is left
open by the spec; the model's free values agree at equal reset counts (DESIGN CHOICE, log entry 15). -/

namespace Sys2Proof.Machine

/-- One step of instance `k` of a bank; a number with no instance steps none. -/
def stepInstance (k : Nat) (bank : List State) : Host.Outcome (List State) Fault Refusal :=
  match bank[k]? with
  | none => .next bank
  | some s =>
    match step s with
    | .next t => .next (bank.set k t)
    | .fault r => .fault r
    | .refused r => .refused r

end Sys2Proof.Machine
end

