-- ==== Sys2Proof/Machine/Signal.lean ====
section
/-! DEFINITION. The signal level: ports, the mapping of a clock cycle onto an input element, and the Mealy outputs
(`10_state.md` R32 to R35; all of it the spec's decision D2). The step level is the normative one (R4); this file says
what the pins of this hardware (policy `absorb`) show of it. -/

namespace Sys2Proof.Machine

/-- The input ports of R32 but for `clk`, sampled in one cycle. -/
structure InPins where
  rst : Bool
  rxValid : Bool
  rxByte : Byte
deriving DecidableEq, Repr

/-- The payload ports of R33. -/
structure OutPayload where
  noteOnChannel : Byte
  noteOnNote : Byte
  noteOnVelocity : Byte
  reportStatus : Byte
  reportChannel : Byte
  reportData0 : Byte
  reportData1 : Byte
deriving DecidableEq, Repr

/-- The output ports of R33 in one cycle. -/
structure OutPins where
  noteOnValid : Bool
  reportValid : Bool
  payload : OutPayload
deriving DecidableEq, Repr

/-- Cycle to element (R34): `rst` has priority over `rx_valid`, and `rx_byte` counts only with `rx_valid`. -/
def elementOf (p : InPins) : Input :=
  if p.rst then .reset else if p.rxValid then .byte p.rxByte else .noByte

/-- The `report_valid` strobe by the formula of R35. -/
def reportStrobe (s : State) (p : InPins) : Bool :=
  !p.rst && p.rxValid && s.state == .receivingData && s.cursor == 1#1

/-- The `note_on_valid` strobe by the formula of R35. -/
def noteOnStrobe (s : State) (p : InPins) : Bool := reportStrobe s p && isNoteOn s.status

/-- The outputs of one cycle after the first RESET (R33, R35). A group's payload is meaningful only with its strobe;
without it the ports show `x`, any value (U7; log entry 7). -/
def specifiedPins (s : State) (p : InPins) (x : OutPayload) : OutPins where
  noteOnValid := noteOnStrobe s p
  reportValid := reportStrobe s p
  payload :=
    { noteOnChannel := if noteOnStrobe s p then nibbleArg s.channel else x.noteOnChannel
      noteOnNote := if noteOnStrobe s p then s.data0 else x.noteOnNote
      noteOnVelocity := if noteOnStrobe s p then p.rxByte else x.noteOnVelocity
      reportStatus := if reportStrobe s p then nibbleArg s.status else x.reportStatus
      reportChannel := if reportStrobe s p then nibbleArg s.channel else x.reportChannel
      reportData0 := if reportStrobe s p then s.data0 else x.reportData0
      reportData1 := if reportStrobe s p then p.rxByte else x.reportData1 }

/-- The outputs of one cycle. Until the first RESET has taken place all of them, the strobes included and whatever the
inputs, are unspecified (`70_reset_and_hazards.md` R143, U8; `95_test_vectors.md` section 2.6 cycle 0; log entry 5): the
ports show `x`, any value. After it they are those of R33 and R35, with `x` on the unstrobed payload ports. -/
def outPins (s : State) (p : InPins) (x : OutPins) : OutPins :=
  if s.resetSeen then specifiedPins s p x.payload else x

/-- The events the sinks take from the ports in one cycle: `NoteOn` first, then `Report` (R35, R103). -/
def portEvents (o : OutPins) : List Event :=
  (if o.noteOnValid then
    [.noteOn o.payload.noteOnChannel o.payload.noteOnNote o.payload.noteOnVelocity] else []) ++
  (if o.reportValid then
    [.report o.payload.reportStatus o.payload.reportChannel o.payload.reportData0 o.payload.reportData1] else [])

/-- One rising clock edge: a step on the element of the cycle that ends at it (R34). -/
def clockEdge (p : InPins) (s : State) : Host.Outcome State Fault Refusal := step (s.present (elementOf p))

/-- A run of clock cycles. -/
def clockRun : List InPins → State → Host.Outcome State Fault Refusal
  | [], s => .next s
  | p :: ps, s =>
    match clockEdge p s with
    | .next t => clockRun ps t
    | .fault r => .fault r
    | .refused r => .refused r

/-- What the sinks take from the ports over a run of cycles, each with the values its unspecified ports show. -/
def portTrace : List (InPins × OutPins) → State → List Event
  | [], _ => []
  | (p, x) :: cs, s =>
    portEvents (outPins s p x) ++
      match clockEdge p s with
      | .next t => portTrace cs t
      | .fault _ => []
      | .refused _ => []

end Sys2Proof.Machine
end

