-- ==== Sys2Proof/Machine/Stream.lean ====
section
/-! DEFINITION. The stream-level reading of `40_process_byte.md` R92, the spec's equivalent definition that the step
function is checked against. It shares no code with the message actions. -/

namespace Sys2Proof.Machine

/-- The events of the message `h`, `x`, `y` (R92): `NoteOn` if the high nibble of `h` is 0x9, then `Report`. -/
def messageEvents (h x y : Byte) : List Event :=
  (if h >>> 4 = 0x09#8 then [.noteOn (h &&& 0x0F#8) x y] else []) ++ [.report (h >>> 4) (h &&& 0x0F#8) x y]

/-- What `parse(s)` of R92 yields: the events, and the sequencing state it stops in. -/
structure Parsed where
  events : List Event
  state : DecoderState
  cursor : Slot
deriving DecidableEq, Repr

/-- Events in front of what the rest of the stream yields. -/
def Parsed.after (es : List Event) (r : Parsed) : Parsed := { r with events := es ++ r.events }

/-- `parse(s)` of R92, for a stream without `Reset` read from `Idle`. -/
def parse : List Byte → Parsed
  | [] => ⟨[], .idle, 0#1⟩
  | h :: rest =>
    if h < 0x80#8 then parse rest
    else
      match rest with
      | [] => ⟨[], .receivingData, 0#1⟩
      | [_] => ⟨[], .receivingData, 1#1⟩
      | x :: y :: tail => (parse tail).after (messageEvents h x y)

end Sys2Proof.Machine
end

