-- ==== Sys2Proof/Safety.lean ====
section
/-! DEFINITION. What counts as a good state and a good event log, runs over an input sequence, and the states that can
be reached: the terms the statements use. -/

namespace Sys2Proof

/-! ### Events and input elements -/

/-- Whether an event is a `Report`: there is one for each completed message (`41_handle_message.md` R102, R108). -/
def Event.isReport : Event → Bool
  | .noteOn _ _ _ => false
  | .report _ _ _ _ => true

/-- Whether an input element carries a byte. -/
def Input.isByte : Input → Bool
  | .reset => false
  | .byte _ => true
  | .noByte => false

/-- An event whose data arguments are at most 0x7F. -/
def Event.dataInRange : Event → Bool
  | .noteOn _ x y => decide (x ≤ 0x7F#8) && decide (y ≤ 0x7F#8)
  | .report _ _ x y => decide (x ≤ 0x7F#8) && decide (y ≤ 0x7F#8)

end Sys2Proof

namespace Sys2Proof.Machine

/-! ### Runs -/

/-- `n` steps under a policy. -/
def runUnder (p : StatusMidmsg) : Nat → State → Host.Outcome State Fault Refusal
  | 0, s => .next s
  | n + 1, s =>
    match stepUnder p s with
    | .next t => runUnder p n t
    | .fault r => .fault r
    | .refused r => .refused r

/-- The run that applies the input sequence `xs`, under a policy. -/
def feedUnder (p : StatusMidmsg) (xs : List Input) (s : State) : Host.Outcome State Fault Refusal :=
  runUnder p xs.length (s.withPending xs)

/-- The run of this hardware that applies the input sequence `xs` (`00_scope.md` R6), through the host's interface. -/
def feed (xs : List Input) (s : State) : Host.Outcome State Fault Refusal :=
  Host.Core.run Sys2Proof.core xs.length (s.withPending xs)

/-- A byte stream as an input sequence. -/
def bytes (bs : List Byte) : List Input := bs.map .byte

/-! ### Invariants -/

/-- INV1 (`10_state.md` R26): in `Idle` the cursor is 0. INV2 holds by the cursor's type. -/
abbrev State.Inv1 (s : State) : Prop := s.state = .idle → s.cursor = 0#1

/-- A log every `NoteOn` of which is followed at once by the `Report` of the same message with status nibble 0x09, and
every `Report` of which carries a status nibble 0x08 to 0x0F and a channel 0x00 to 0x0F
(`95_test_vectors.md` section 4, properties 3 and 4). -/
def logOk : List Event → Bool
  | [] => true
  | .report n c _ _ :: es => decide (0x08#8 ≤ n) && decide (n ≤ 0x0F#8) && decide (c ≤ 0x0F#8) && logOk es
  | .noteOn c x y :: .report n c' x' y' :: es =>
    n == 0x09#8 && c == c' && x == x' && y == y' && decide (c ≤ 0x0F#8) && logOk es
  | .noteOn _ _ _ :: .noteOn _ _ _ :: _ => false
  | [.noteOn _ _ _] => false

/-- The invariant of this hardware: INV1, a latched status nibble has its top bit set while a message is under way
(`10_state.md` R23, R27), and the event log is a good one. -/
abbrev State.Inv (s : State) : Prop :=
  s.Inv1 ∧ (s.state = .receivingData → 0x8#4 ≤ s.status) ∧ logOk s.emitted = true

/-- The invariant of the variant `restart` (`42_variant_restart.md` R118 (a)): INV1, slot 0 holds a data byte while it
awaits slot 1, and every event's data arguments are in range. -/
abbrev State.RestartInv (s : State) : Prop :=
  s.Inv1 ∧ (s.state = .receivingData → s.cursor = 1#1 → s.data0 ≤ 0x7F#8) ∧ s.emitted.all Event.dataInRange = true

/-! ### What may arrive -/

/-- Under the policy `absorb` from `s`, no byte of `xs` with bit 7 set arrives while `state == ReceivingData`: the
condition under which R115 makes the two policies agree. -/
def noStatusMidMessage : List Input → State → Bool
  | [], _ => true
  | x :: xs, s =>
    (match x with
      | .byte b => decide (s.state = .idle ∨ b < 0x80#8)
      | .reset => true
      | .noByte => true) &&
    match feedUnder .absorb [x] s with
    | .next t => noStatusMidMessage xs t
    | .fault _ => false
    | .refused _ => false

/-- The states this hardware can be in after a reset, whatever the environment presents (R6). -/
inductive Reachable : State → Prop
  | reset : Reachable State.reset
  | presented {s : State} (xs : List Input) : Reachable s → Reachable (s.withPending xs)
  | afterStep {s t : State} : Reachable s → step s = .next t → Reachable t

end Sys2Proof.Machine
end

