-- ==== Sys2Proof/Certificates/Slice0/Obligations.lean ====
section
/-! DEFINITION. The statements for the provers. A next state written as a record update of the old one says the frame
whole: every register, the event log, the input still to come and the free-value counter are as before but for the fields
named. Slices of bytes are written as R8 defines them, not through the decoder's own helpers. -/

open Sys2Proof Sys2Proof.Machine

/-! ### The byte operations -/

/-- R82. IDLE_STATUS latches the nibbles and enters `ReceivingData`; a byte with bit 7 set met in `Idle` is such a step,
whatever its nibbles. The slots, the cursor and the log are unchanged. -/
def Obligations.IdleStatusStartsMessage : Prop :=
  (∀ (n c : Nibble) (s : State),
    exec (.idleStatus n c) s = .next { s with status := n, channel := c, state := .receivingData }) ∧
  ∀ (b : Byte) (rest : List Input) (s : State),
    s.state = .idle → s.pending = .byte b :: rest → b.getLsbD 7 = true →
    step s = .next { s with
      status := b.extractLsb' 4 4, channel := b.extractLsb' 0 4, state := .receivingData, pending := rest }

/-- R83. IDLE_DATA writes no register and emits nothing; a byte with bit 7 clear met in `Idle` is such a step. -/
def Obligations.IdleDataIsDropped : Prop :=
  (∀ (d : BitVec 7) (s : State), exec (.idleData d) s = .next s) ∧
  ∀ (b : Byte) (rest : List Input) (s : State),
    s.state = .idle → s.pending = .byte b :: rest → b.getLsbD 7 = false →
    step s = .next { s with pending := rest }

/-- R84. RX_DATA0 stores the whole byte in slot 0 and sets the cursor to 1; any byte met in (`ReceivingData`, 0) is such a
step, bit 7 not examined (the spec's decision D1 keeps what the source describes). -/
def Obligations.RxData0StoresFirstByte : Prop :=
  (∀ (b : Byte) (s : State), exec (.rxData0 b) s = .next { s with data0 := b, cursor := 1#1 }) ∧
  ∀ (b : Byte) (rest : List Input) (s : State),
    s.state = .receivingData → s.cursor = 0#1 → s.pending = .byte b :: rest →
    step s = .next { s with data0 := b, cursor := 1#1, pending := rest }

/-- R85. RX_DATA1 stores the whole byte in slot 1, emits the events of the message with that byte, and returns to
(`Idle`, 0); any byte met in (`ReceivingData`, 1) is such a step, bit 7 not examined (decision D1). -/
def Obligations.RxData1CompletesMessage : Prop :=
  (∀ (b : Byte) (s : State), exec (.rxData1 b) s = .next { s with
      data1 := b, cursor := 0#1, state := .idle
      emitted := s.emitted ++
        (if s.status = 0x9#4 then [.noteOn (s.channel.setWidth 8) s.data0 b] else []) ++
        [.report (s.status.setWidth 8) (s.channel.setWidth 8) s.data0 b] }) ∧
  ∀ (b : Byte) (rest : List Input) (s : State),
    s.state = .receivingData → s.cursor = 1#1 → s.pending = .byte b :: rest →
    step s = .next { s with
      data1 := b, cursor := 0#1, state := .idle, pending := rest
      emitted := s.emitted ++
        (if s.status = 0x9#4 then [.noteOn (s.channel.setWidth 8) s.data0 b] else []) ++
        [.report (s.status.setWidth 8) (s.channel.setWidth 8) s.data0 b] }

/-- R81. CLASSIFY is bit 7 of the byte; it reads no state and writes none. In `Idle` it selects the operation, in
`ReceivingData` it is not consulted. -/
def Obligations.ClassifyTestsBitSeven : Prop :=
  (∀ (b : Byte) (s : State), exec (.classify b) s = .next s) ∧
  (∀ b : Byte, classOf b = if b.getLsbD 7 = true then .status else .data) ∧
  (∀ (b : Byte) (c : Slot), decode .absorb .idle c (.byte b) =
    match classOf b with
    | .status => .idleStatus (b.extractLsb' 4 4) (b.extractLsb' 0 4)
    | .data => .idleData (b.extractLsb' 0 7)) ∧
  ∀ (b : Byte) (c : Slot), decode .absorb .receivingData c (.byte b) = if c = 0#1 then .rxData0 b else .rxData1 b

/-- R116. RX_STATUS_RESTART latches the nibbles and clears the cursor without any event; under `restart` a byte with bit
7 set met in `ReceivingData`, at either cursor value, is such a step, and under `absorb` nothing selects it. The
register-level detail is the spec's decision D1. -/
def Obligations.StatusRestartAbandonsPartialMessage : Prop :=
  (∀ (st : DecoderState) (c : Slot) (x : Input) (n k : Nibble), decode .absorb st c x ≠ .rxStatusRestart n k) ∧
  (∀ (n c : Nibble) (s : State),
    exec (.rxStatusRestart n c) s = .next { s with status := n, channel := c, cursor := 0#1 }) ∧
  ∀ (b : Byte) (rest : List Input) (s : State),
    s.state = .receivingData → s.pending = .byte b :: rest → b.getLsbD 7 = true →
    stepUnder .restart s = .next { s with
      status := b.extractLsb' 4 4, channel := b.extractLsb' 0 4, cursor := 0#1, pending := rest }

/-! ### The message operations -/

/-- R101. NOTE_ON emits one `NoteOn` when the status nibble is 0x9, for every channel, note and velocity, and nothing
otherwise; it writes no register. The channel argument is at most 0x0F. -/
def Obligations.NoteOnFiresForNibbleNine : Prop :=
  ∀ s : State, s.channel.setWidth 8 ≤ 0x0F#8 ∧ exec .noteOn s = .next { s with
    emitted := s.emitted ++ if s.status = 0x9#4 then [.noteOn (s.channel.setWidth 8) s.data0 s.data1] else [] }

/-- R102. REPORT emits one `Report` whatever the status nibble; it writes no register. Its channel argument is at most
0x0F, and its status argument is 0x08 to 0x0F for a status nibble that IDLE_STATUS has written. -/
def Obligations.ReportFiresForEveryNibble : Prop :=
  ∀ s : State, s.channel.setWidth 8 ≤ 0x0F#8 ∧
    (0x8#4 ≤ s.status → 0x08#8 ≤ s.status.setWidth 8 ∧ s.status.setWidth 8 ≤ 0x0F#8) ∧
    exec .report s = .next { s with
      emitted := s.emitted ++ [.report (s.status.setWidth 8) (s.channel.setWidth 8) s.data0 s.data1] }

/-- R100. HANDLE_MESSAGE emits `NoteOn`, when the status nibble is 0x9, and then `Report`; it writes no register. It and
its two actions are selected by no input element; RX_DATA1 runs it, with the byte already in slot 1, and no other
operation that an element selects adds to the log. -/
def Obligations.HandleMessageDispatches : Prop :=
  (∀ s : State, exec .handleMessage s = .next { s with
    emitted := s.emitted ++
      if s.status = 0x9#4 then
        [.noteOn (s.channel.setWidth 8) s.data0 s.data1,
         .report (s.status.setWidth 8) (s.channel.setWidth 8) s.data0 s.data1]
      else [.report (s.status.setWidth 8) (s.channel.setWidth 8) s.data0 s.data1] }) ∧
  (∀ (p : StatusMidmsg) (st : DecoderState) (c : Slot) (x : Input),
    decode p st c x ≠ .handleMessage ∧ decode p st c x ≠ .noteOn ∧ decode p st c x ≠ .report) ∧
  (∀ (b : Byte) (s : State), ∃ u : State, exec .handleMessage { s with data1 := b } = .next u ∧
    exec (.rxData1 b) s = .next { u with cursor := 0#1, state := .idle }) ∧
  ∀ (p : StatusMidmsg) (st : DecoderState) (c : Slot) (x : Input) (s t : State),
    exec (decode p st c x) s = .next t → (∃ b, decode p st c x = .rxData1 b) ∨ t.emitted = s.emitted

/-! ### The steps without a byte -/

/-- NONE writes nothing and emits nothing, in any state (R86). That a step with no element waiting is a NONE step is the
model's choice (log entry 2). -/
def Obligations.NoByteHoldsState : Prop :=
  (∀ s : State, exec .noByte s = .next s) ∧
  (∀ (rest : List Input) (s : State), s.pending = .noByte :: rest → step s = .next { s with pending := rest }) ∧
  ∀ s : State, s.pending = [] → step s = .next s

/-- R140. From any state at all, RESET leaves (`Idle`, 0) and emits nothing; nothing is said of the four payload
registers, which are unspecified afterwards (what they hold in the model is log entry 4). -/
def Obligations.ResetForcesIdle : Prop :=
  (∀ s : State, ∃ t : State, exec .reset s = .next t ∧
    t.state = .idle ∧ t.cursor = 0#1 ∧ t.emitted = s.emitted ∧ t.pending = s.pending) ∧
  ∀ (rest : List Input) (s : State), s.pending = .reset :: rest →
    ∃ t : State, step s = .next t ∧
      t.state = .idle ∧ t.cursor = 0#1 ∧ t.emitted = s.emitted ∧ t.pending = rest

/-! ### Selection, decoding and encoding -/

/-- R80. A step takes the next input element and performs the operation that the element and (`state`, `cursor`) select,
on the state without that element; the five lines of the rule's pseudocode. -/
def Obligations.StepRunsDecodedInstruction : Prop :=
  (∀ (x : Input) (rest : List Input) (s : State), s.pending = x :: rest →
    step s = exec (decode .absorb s.state s.cursor x) { s with pending := rest } ∧
    (decode .absorb s.state s.cursor x).wellFormed = true) ∧
  (∀ (st : DecoderState) (c : Slot), decode .absorb st c .reset = .reset ∧ decode .absorb st c .noByte = .noByte) ∧
  (∀ (b : Byte) (c : Slot), b.getLsbD 7 = true →
    decode .absorb .idle c (.byte b) = .idleStatus (b.extractLsb' 4 4) (b.extractLsb' 0 4)) ∧
  (∀ (b : Byte) (c : Slot), b.getLsbD 7 = false →
    decode .absorb .idle c (.byte b) = .idleData (b.extractLsb' 0 7)) ∧
  (∀ b : Byte, decode .absorb .receivingData 0#1 (.byte b) = .rxData0 b) ∧
  ∀ b : Byte, decode .absorb .receivingData 1#1 (.byte b) = .rxData1 b

/-- The host's table words: the step on a placed word runs what the table decoder reads from it, in the sequencing state
that follows a reset. The placement is the model's choice (log entry 10). -/
def Obligations.TableWordRunsAsDecoded : Prop :=
  ∀ (nbits w : Nat) (i : Instr) (s : State), decodeTableWord nbits w = some i →
    step (s.withFetchWord nbits w) = exec i { s with state := .idle, cursor := 0#1 }

/-- Words written out from the formats S, D and X (R62 to R64), and the operation each stands for in its state. -/
def Obligations.WordsDecodeAsTheirFormats : Prop :=
  decode .absorb .idle 0#1 (.byte 0b10010000#8) = .idleStatus 0b1001#4 0b0000#4 ∧
  decode .absorb .idle 0#1 (.byte 0b11111000#8) = .idleStatus 0b1111#4 0b1000#4 ∧
  decode .absorb .idle 0#1 (.byte 0b01111111#8) = .idleData 0b1111111#7 ∧
  decode .absorb .receivingData 0#1 (.byte 0b10010001#8) = .rxData0 0b10010001#8 ∧
  decode .absorb .receivingData 1#1 (.byte 0b01000000#8) = .rxData1 0b01000000#8 ∧
  decode .restart .receivingData 1#1 (.byte 0b10010001#8) = .rxStatusRestart 0b1001#4 0b0001#4

/-- R66 and R117. Of the rows of each decode table exactly one applies to every byte in every sequencing state that INV1
admits, and it names the operation the decoder selects. -/
def Obligations.DecodeTablesSelectExactlyOneRow : Prop :=
  ∀ (p : StatusMidmsg) (st : DecoderState) (c : Slot) (b : Byte), (st = .idle → c = 0#1) →
    ∃ r : DecodeRow, (decodeTable p).filter (fun r => r.applies st c b) = [r] ∧
      r.operation = (decode p st c (.byte b)).mnemonic

/-- Decoding and encoding agree, for all operations and at every operand value: an element decodes to `i` exactly when `i`
is well formed, is encoded by that element, and is the one selected in that sequencing state (R60 to R66, R72, R117). -/
def Obligations.DecodeInvertsEncode : Prop :=
  ∀ (p : StatusMidmsg) (st : DecoderState) (c : Slot) (x : Input) (i : Instr),
    decode p st c x = i ↔ i.wellFormed = true ∧ encode i = some x ∧ selectedIn p st c i = true

/-! ### Whole-machine frames -/

/-- The nibbles are written together, by IDLE_STATUS from its byte and by nothing else but RESET (R23, R24). A step with
no element waiting is a NONE step by the model's choice (log entry 2). -/
def Obligations.NibblesWrittenOnlyByIdleStatus : Prop :=
  ∀ s t : State, step s = .next t →
    (t.status = s.status ∧ t.channel = s.channel) ∨
    (∃ rest, s.pending = .reset :: rest) ∨
    ∃ b rest, s.pending = .byte b :: rest ∧ s.state = .idle ∧ b.getLsbD 7 = true ∧
      t.status = b.extractLsb' 4 4 ∧ t.channel = b.extractLsb' 0 4

/-- The only store is of an arriving byte in `ReceivingData`, at the address the cursor holds; every other slot reads as
before, and in every other step but RESET both do (R25, R41). That both do in a step with no element waiting rests on the
model's choice that such a step is NONE (log entry 2). -/
def Obligations.SlotsWrittenOnlyAtCursor : Prop :=
  ∀ s t : State, step s = .next t →
    match s.pending with
    | [] => ∀ a, slotRead t a = slotRead s a
    | .noByte :: _ => ∀ a, slotRead t a = slotRead s a
    | .reset :: _ => True
    | .byte b :: _ =>
      if s.state = .receivingData then slotRead t s.cursor = b ∧ ∀ a, a ≠ s.cursor → slotRead t a = slotRead s a
      else ∀ a, slotRead t a = slotRead s a

/-- R108, with R86 and R140 for the elements `None` and `Reset`. One step adds to the log one or two events when a byte
completes a message, two exactly for note-on, and none otherwise; what the log held is kept. A step with no element
waiting is a NONE step by the model's choice (log entry 2). -/
def Obligations.EventsOnlyWhenMessageCompletes : Prop :=
  ∀ s t : State, step s = .next t → ∃ es : List Event, t.emitted = s.emitted ++ es ∧
    ((s.state = .receivingData ∧ s.cursor = 1#1 ∧ ∃ b rest, s.pending = .byte b :: rest) →
      es.length = if s.status = 0x9#4 then 2 else 1) ∧
    (¬(s.state = .receivingData ∧ s.cursor = 1#1 ∧ ∃ b rest, s.pending = .byte b :: rest) → es = [])

/-- The sequencing state moves as the table of R89 says, from every state that satisfies INV1; that it does not
move in a step with no element waiting rests on the model's choice that such a step is NONE (log entry 2). -/
def Obligations.SequencingFollowsControlTable : Prop :=
  ∀ s t : State, s.Inv1 → step s = .next t →
    match s.pending with
    | [] => t.state = s.state ∧ t.cursor = s.cursor
    | .noByte :: _ => t.state = s.state ∧ t.cursor = s.cursor
    | .reset :: _ => t.state = .idle ∧ t.cursor = 0#1
    | .byte b :: _ =>
      match s.state with
      | .idle => t.state = (if b.getLsbD 7 = true then .receivingData else .idle) ∧ t.cursor = 0#1
      | .receivingData =>
        if s.cursor = 0#1 then t.state = .receivingData ∧ t.cursor = 1#1 else t.state = .idle ∧ t.cursor = 0#1

/-- R87. In every state, the unreachable one included, every byte selects one of the four byte operations, and the step
completes; under either policy no step faults or is refused (a step with no element waiting included, NONE by log entry
2). -/
def Obligations.EveryStepCompletes : Prop :=
  (∀ (b : Byte) (rest : List Input) (s : State), s.pending = .byte b :: rest →
    (decode .absorb s.state s.cursor (.byte b)).mnemonic ∈ ["IDLE_STATUS", "IDLE_DATA", "RX_DATA0", "RX_DATA1"] ∧
    ∃ t : State, step s = .next t) ∧
  ∀ (p : StatusMidmsg) (s : State), ∃ t : State, stepUnder p s = .next t

/-! ### Invariants -/

/-- The state after reset is (`Idle`, 0) (R31) and satisfies the invariants of both policies, whatever the unspecified
registers hold. -/
def Obligations.ResetStateSatisfiesInvariants : Prop :=
  State.reset.state = .idle ∧ State.reset.cursor = 0#1 ∧
  ∀ (n c : Nibble) (x y : Byte),
    State.Inv { State.reset with status := n, channel := c, data0 := x, data1 := y } ∧
    State.RestartInv { State.reset with status := n, channel := c, data0 := x, data1 := y }

/-- INV1 of R26 holds after reset and every step keeps it, under both policies; INV2 holds in every state. -/
def Obligations.StepsKeepCursorInvariants : Prop :=
  State.reset.Inv1 ∧
  (∀ (p : StatusMidmsg) (s t : State), s.Inv1 → stepUnder p s = .next t → t.Inv1) ∧
  ∀ s : State, s.state = .receivingData → s.cursor = 0#1 ∨ s.cursor = 1#1

/-- Every step keeps the invariant of this hardware: INV1; a status nibble 0x8 to 0xF while a message is under way; a log
in which each `NoteOn` is followed at once by the `Report` of the same message with status nibble 0x09, and every `Report`
has a status nibble 0x08 to 0x0F and a channel 0x00 to 0x0F (R23, R24, R26, R27, R100 to R103). -/
def Obligations.StepsKeepMessageInvariant : Prop :=
  ∀ s t : State, s.Inv → step s = .next t → t.Inv

/-- Every reachable state satisfies the invariant, whatever the environment presents. -/
def Obligations.ReachableStatesSatisfyMessageInvariant : Prop :=
  ∀ s : State, Reachable s → s.Inv

/-- The sequencing states that are reached are exactly three: (`Idle`, 0), (`ReceivingData`, 0), (`ReceivingData`, 1)
(R29, R39). -/
def Obligations.ReachedSequencingStatesAreThree : Prop :=
  ∀ (st : DecoderState) (c : Slot),
    (∃ s : State, Reachable s ∧ s.state = st ∧ s.cursor = c) ↔ (st = .idle → c = 0#1)

/-- Under `restart` every step keeps: INV1, a data byte in slot 0 while it awaits slot 1, and data arguments of at most
0x7F in every event (R118 (a)). -/
def Obligations.RestartStepsKeepDataRange : Prop :=
  ∀ s t : State, s.RestartInv → stepUnder .restart s = .next t → t.RestartInv

/-! ### Streams -/

/-- The stream-level reading of R92, which the spec marks as derived. Read from `Idle`, a byte stream emits the events
`parse` finds and stops in the state `parse` stops in. -/
def Obligations.StreamReadingAgreesWithParse : Prop :=
  ∀ (bs : List Byte) (s : State), s.state = .idle → s.cursor = 0#1 →
    ∃ t : State, feed (bytes bs) s = .next t ∧
      t.emitted = s.emitted ++ (parse bs).events ∧ t.state = (parse bs).state ∧ t.cursor = (parse bs).cursor

/-- R86. A NONE step holds the whole state, and two input sequences that differ only in `None` elements, anywhere, end in
the same state with the same events, from any state (the spec's decision D2). That the four payload registers, unspecified
after a RESET in the input, agree in the two runs is the model's choice (log entry 15). -/
def Obligations.NoByteElementsChangeNothing : Prop :=
  (∀ s : State, exec .noByte s = .next s) ∧
  ∀ (xs ys : List Input) (s : State),
    xs.filter (fun x => x != .noByte) = ys.filter (fun x => x != .noByte) → feed xs s = feed ys s

/-- No event depends on what the payload registers held at a reset: two runs on the same input from (`Idle`, 0) that
differ only in the payload registers and in the supply of free values emit the same events, through any later resets
(R6, R27). -/
def Obligations.UnspecifiedValuesReachNoEvent : Prop :=
  ∀ (xs : List Input) (s s' : State),
    s.state = .idle → s.cursor = 0#1 → s'.state = .idle → s'.cursor = 0#1 → s'.emitted = s.emitted →
    ∃ t t' : State, feed xs s = .next t ∧ feed xs s' = .next t' ∧
      t'.emitted = t.emitted ∧ t'.state = t.state ∧ t'.cursor = t.cursor

/-- A status byte met in `Idle` and the next two bytes, whatever they are, make one message: the registers hold its parts,
`NoteOn` fires exactly for the bytes 0x90 to 0x9F, `Report` always, every value passed through unchecked
(R27 (b), R68, R90, R104). -/
def Obligations.ThreeBytesMakeOneMessage : Prop :=
  ∀ (h x y : Byte) (s : State), s.state = .idle → s.cursor = 0#1 → h.getLsbD 7 = true →
    feed (bytes [h, x, y]) s = .next { s with
      status := h.extractLsb' 4 4, channel := h.extractLsb' 0 4, data0 := x, data1 := y, pending := []
      emitted := s.emitted ++
        (if 0x90#8 ≤ h ∧ h ≤ 0x9F#8 then [.noteOn (h &&& 0x0F#8) x y] else []) ++
        [.report (h >>> 4) (h &&& 0x0F#8) x y] }

/-- R105. A message's events come once, in the step that completes it, and the same message twice in a row emits them
twice. -/
def Obligations.RepeatedMessageIsReportedTwice : Prop :=
  ∀ (h x y : Byte) (s : State), s.state = .idle → s.cursor = 0#1 → h.getLsbD 7 = true →
    (∃ t : State, feed (bytes [h, x]) s = .next t ∧ t.emitted = s.emitted) ∧
    (∃ t : State, feed (bytes [h, x, y]) s = .next t ∧ t.emitted = s.emitted ++ messageEvents h x y) ∧
    ∃ t : State, feed (bytes [h, x, y, h, x, y]) s = .next t ∧
      t.emitted = s.emitted ++ messageEvents h x y ++ messageEvents h x y ∧ t.state = .idle ∧ t.cursor = 0#1

/-- R149. A message followed by data bytes without a status byte of their own ends as the message alone does: the data
bytes are dropped, though the nibbles persist. -/
def Obligations.RunningStatusIsNotDecoded : Prop :=
  ∀ (h x y : Byte) (ds : List Byte) (s : State),
    s.state = .idle → s.cursor = 0#1 → h.getLsbD 7 = true → (∀ d ∈ ds, d.getLsbD 7 = false) →
    feed (bytes (h :: x :: y :: ds)) s = feed (bytes [h, x, y]) s

/-- R148. In `Idle` any number of bytes with bit 7 clear leave the state as it was, and the first byte with bit 7 set then
starts a message. -/
def Obligations.DataBytesInIdleAreIgnored : Prop :=
  ∀ (ds : List Byte) (s : State), s.state = .idle → (∀ d ∈ ds, d.getLsbD 7 = false) →
    feed (bytes ds) s = .next { s with pending := [] } ∧
    ∀ b : Byte, b.getLsbD 7 = true →
      feed (bytes (ds ++ [b])) s = .next { s with
        status := b.extractLsb' 4 4, channel := b.extractLsb' 0 4, state := .receivingData, pending := [] }

/-- A status byte absorbed as the last byte of a message completes that message and starts none; its own data bytes are
dropped, and decoding is right again from the next status byte met in `Idle` (R146, R147). -/
def Obligations.AbsorbedStatusByteDamageIsBounded : Prop :=
  ∀ (h x h' k u v : Byte) (ds : List Byte) (s : State),
    s.state = .idle → s.cursor = 0#1 → h.getLsbD 7 = true → h'.getLsbD 7 = true → k.getLsbD 7 = true →
    (∀ d ∈ ds, d.getLsbD 7 = false) →
    ∃ t : State, feed (bytes (h :: x :: h' :: ds ++ [k, u, v])) s = .next t ∧
      t.emitted = s.emitted ++ messageEvents h x h' ++ messageEvents k u v ∧ t.state = .idle ∧ t.cursor = 0#1

/-- R142 and R123 (a), which rest on the spec's decision D7. A RESET in the middle of a message, or anywhere, discards
what was under way without an event; the rest of the message is then dropped up to the next byte with bit 7 set; and a
byte presented in the cycle of the reset is lost. That the unspecified payload registers agree in the two steps compared
is the model's choice (log entry 15). -/
def Obligations.ResetDiscardsPartialMessage : Prop :=
  (∀ (ds : List Byte) (s : State), (∀ d ∈ ds, d.getLsbD 7 = false) →
    ∃ t : State, feed (.reset :: bytes ds) s = .next t ∧
      t.emitted = s.emitted ∧ t.state = .idle ∧ t.cursor = 0#1) ∧
  ∀ (b : Byte) (s : State),
    clockEdge ⟨true, true, b⟩ s = clockEdge ⟨true, false, b⟩ s ∧
    ∃ t : State, clockEdge ⟨true, true, b⟩ s = .next t ∧
      t.emitted = s.emitted ∧ t.state = .idle ∧ t.cursor = 0#1

/-- From `ReceivingData` the decoder is back in `Idle` after exactly two bytes at cursor 0 and after exactly one at cursor
1, whatever the bytes and however many cycles without a byte come before each (R91). -/
def Obligations.TwoBytesReturnToIdle : Prop :=
  ∀ (x y : Byte) (k l : Nat) (s : State), s.state = .receivingData →
    (s.cursor = 0#1 →
      (∃ t : State, feed (List.replicate k .noByte ++ [.byte x]) s = .next t ∧
        t.state = .receivingData ∧ t.cursor = 1#1) ∧
      ∃ t : State, feed (List.replicate k .noByte ++ .byte x :: List.replicate l .noByte ++ [.byte y]) s = .next t ∧
        t.state = .idle ∧ t.cursor = 0#1) ∧
    (s.cursor = 1#1 →
      ∃ t : State, feed (List.replicate k .noByte ++ [.byte x]) s = .next t ∧ t.state = .idle ∧ t.cursor = 0#1)

/-- A partial message is held through any number of cycles without a byte, and the next two bytes, however much later,
complete it with one `Report` (R39, R127, R152). -/
def Obligations.PartialMessageIsHeldWithoutTimeout : Prop :=
  ∀ (k l : Nat) (x y : Byte) (s : State), s.state = .receivingData → s.cursor = 0#1 →
    feed (List.replicate k .noByte) s = .next { s with pending := [] } ∧
    feed (List.replicate k .noByte ++ .byte x :: List.replicate l .noByte ++ [.byte y]) s = .next { s with
      data0 := x, data1 := y, state := .idle, pending := []
      emitted := s.emitted ++
        (if s.status = 0x9#4 then [.noteOn (s.channel.setWidth 8) x y] else []) ++
        [.report (s.status.setWidth 8) (s.channel.setWidth 8) x y] }

/-- Every message takes three bytes of its own: the `Report` events a run from `Idle` adds are at most a third of the
bytes presented, through any resets and empty cycles (R70, R90). -/
def Obligations.EachMessageConsumesThreeBytes : Prop :=
  ∀ (xs : List Input) (s : State), s.state = .idle → s.cursor = 0#1 →
    ∃ (t : State) (es : List Event), feed xs s = .next t ∧ t.emitted = s.emitted ++ es ∧
      3 * es.countP Event.isReport ≤ xs.countP Input.isByte

/-- Input is processed in order of arrival: what comes later acts on the state the earlier input left, and events are only
ever added at the end (R48). -/
def Obligations.InputIsProcessedInOrder : Prop :=
  ∀ (xs ys : List Input) (s : State), ∃ t u : State,
    feed xs s = .next t ∧ feed (xs ++ ys) s = .next u ∧ feed ys t = .next u ∧
    s.emitted <+: t.emitted ∧ t.emitted <+: u.emitted

/-- R158, which the spec marks as derived. Whatever the state, each of n steps consumes the next input element; no run
hangs, faults or is refused. Steps beyond the last element are NONE steps by the model's choice (log entry 2). -/
def Obligations.EveryInputElementIsConsumed : Prop :=
  ∀ (n : Nat) (s : State), ∃ t : State,
    Host.Core.run Sys2Proof.core n s = .next t ∧ t.pending = s.pending.drop n

/-! ### The policy for a status byte in mid-message -/

/-- The two policies give identical runs on every input in which no byte with bit 7 set arrives while
`state == ReceivingData` (R115). That the payload registers, unspecified after a RESET in the input, agree in the two runs
is the model's choice (log entry 15). -/
def Obligations.PoliciesAgreeWithoutStatusMidMessage : Prop :=
  ∀ (xs : List Input) (s : State), noStatusMidMessage xs s = true → feedUnder .restart xs s = feedUnder .absorb xs s

/-- Under `restart` an unbroken run of bytes with bit 7 set keeps the decoder in (`ReceivingData`, 0), without an event
and with the last byte's nibbles latched (R116, R118 (c)). -/
def Obligations.RestartHoldsThroughStatusBytes : Prop :=
  ∀ (bs : List Byte) (b : Byte) (s : State), s.Inv1 → (∀ d ∈ bs, d.getLsbD 7 = true) → b.getLsbD 7 = true →
    feedUnder .restart (bytes (bs ++ [b])) s = .next { s with
      status := b.extractLsb' 4 4, channel := b.extractLsb' 0 4
      state := .receivingData, cursor := 0#1, pending := [] }

/-- The example of the source, `[0x90, 0x3C, 0x91]`, under both policies (R118 (d); test vectors S4 and S4'). -/
def Obligations.ExampleStreamUnderBothPolicies : Prop :=
  ∀ s : State, s.state = .idle → s.cursor = 0#1 →
    feedUnder .absorb (bytes [0x90#8, 0x3C#8, 0x91#8]) s = .next { s with
      status := 0x9#4, channel := 0x0#4, data0 := 0x3C#8, data1 := 0x91#8, pending := []
      emitted := s.emitted ++ [.noteOn 0x00#8 0x3C#8 0x91#8, .report 0x09#8 0x00#8 0x3C#8 0x91#8] } ∧
    feedUnder .restart (bytes [0x90#8, 0x3C#8, 0x91#8]) s = .next { s with
      status := 0x9#4, channel := 0x1#4, data0 := 0x3C#8, state := .receivingData, pending := [] }

/-! ### The signal level -/

/-- R34, the spec's decision D2. A cycle's element is `Reset` if `rst` is 1, whatever `rx_valid` is, else
`Byte(rx_byte)` if `rx_valid` is 1, else `None`; and the edge that ends it is the step on that element. -/
def Obligations.ClockEdgeStepsOnTheSampledElement : Prop :=
  (∀ (v : Bool) (b : Byte), elementOf ⟨true, v, b⟩ = .reset) ∧
  (∀ b : Byte, elementOf ⟨false, true, b⟩ = .byte b) ∧
  (∀ b : Byte, elementOf ⟨false, false, b⟩ = .noByte) ∧
  ∀ (p : InPins) (s : State), clockEdge p s = step { s with pending := elementOf p :: s.pending }

/-- R33 and R35, the spec's decision D2, for every state after the first RESET (before it the outputs are unspecified,
R143, log entry 5: `OutputsAreUnspecifiedUntilFirstReset`). The strobes are the two formulas of R35; a group's payload
is that of R33 in a cycle in which its strobe is 1, whatever the ports show otherwise; and with both strobes `NoteOn`
comes first. -/
def Obligations.PortStrobesFollowTheState : Prop :=
  ∀ (s : State) (p : InPins) (x : OutPins), s.resetSeen = true →
    ((outPins s p x).reportValid = true ↔
      p.rst = false ∧ p.rxValid = true ∧ s.state = .receivingData ∧ s.cursor = 1#1) ∧
    ((outPins s p x).noteOnValid = true ↔ (outPins s p x).reportValid = true ∧ s.status = 0x9#4) ∧
    ((outPins s p x).noteOnValid = true →
      (outPins s p x).payload.noteOnChannel = s.channel.setWidth 8 ∧
      (outPins s p x).payload.noteOnNote = s.data0 ∧ (outPins s p x).payload.noteOnVelocity = p.rxByte) ∧
    ((outPins s p x).reportValid = true →
      (outPins s p x).payload.reportStatus = s.status.setWidth 8 ∧
      (outPins s p x).payload.reportChannel = s.channel.setWidth 8 ∧
      (outPins s p x).payload.reportData0 = s.data0 ∧ (outPins s p x).payload.reportData1 = p.rxByte) ∧
    ((outPins s p x).noteOnValid = true →
      portEvents (outPins s p x) =
        [.noteOn (s.channel.setWidth 8) s.data0 p.rxByte,
         .report (s.status.setWidth 8) (s.channel.setWidth 8) s.data0 p.rxByte])

/-- Any run of clock cycles is the step-level run on the sampled elements, and once a RESET has taken place the sinks
take from the ports exactly the events the steps emit, whatever the unstrobed ports show (R4, R33 to R35). Before the
first RESET the outputs are unspecified (R143, log entry 5), so from there the ports count from the cycle after the
first one with `rst` 1, which may be the first of all. -/
def Obligations.PortTraceIsTheEventLog : Prop :=
  (∀ (cs : List (InPins × OutPins)) (s : State), s.pending = [] →
    ∃ t : State, clockRun (cs.map Prod.fst) s = .next t ∧
      feed (cs.map fun c => elementOf c.1) s = .next t ∧
      (s.resetSeen = true → t.emitted = s.emitted ++ portTrace cs s)) ∧
  ∀ (p : InPins) (cs : List (InPins × OutPins)) (s : State), p.rst = true →
    ∃ u t : State, clockEdge p s = .next u ∧ clockRun (p :: cs.map Prod.fst) s = .next t ∧
      t.emitted = s.emitted ++ portTrace cs u

/-- R141, R123 (a) and R35, the spec's decisions D7 and D2. Cycles with `rst` 1, in any number, in any state and
whatever is presented with them, leave (`Idle`, 0), store nothing of what is presented and emit nothing; and once a
RESET has taken place the ports show no event in such a cycle. Before that the ports are unspecified (R143, log entry
5). That the unspecified payload registers agree in the steps compared is the model's choice (log entry 15). -/
def Obligations.ResetPinHasPriorityAndMayBeHeld : Prop :=
  ∀ (p : InPins) (ps : List InPins) (s : State), (∀ q ∈ p :: ps, q.rst = true) →
    (∃ t : State, clockRun (p :: ps) s = .next t ∧
      t.state = .idle ∧ t.cursor = 0#1 ∧ t.emitted = s.emitted ∧ t.pending = s.pending) ∧
    (∀ q ∈ p :: ps, clockEdge q s = clockEdge ⟨true, false, 0x00#8⟩ s) ∧
    (s.resetSeen = true → ∀ q ∈ p :: ps, ∀ x : OutPins, portEvents (outPins s q x) = [])

/-- From power-on until the first RESET has taken place the outputs are any value at all, strobes included and whatever
the inputs are: every value of the ports is one that may be shown. A step ends that phase exactly if its element is
`Reset`, and then leaves (`Idle`, 0); nothing brings the phase back, and the reset state is past it (R143, the spec's
decision D17; the field that says so is log entry 5). -/
def Obligations.OutputsAreUnspecifiedUntilFirstReset : Prop :=
  (∀ (s : State) (p : InPins), s.resetSeen = false → ∀ o : OutPins, ∃ x : OutPins, outPins s p x = o) ∧
  State.powerOn.resetSeen = false ∧ State.reset.resetSeen = true ∧
  ∀ (q : StatusMidmsg) (s : State), ∃ t : State, stepUnder q s = .next t ∧
    (t.resetSeen = true ↔ s.resetSeen = true ∨ nextInput s = .reset) ∧
    (nextInput s = .reset → t.state = .idle ∧ t.cursor = 0#1)

/-! ### Several decoders -/

/-- Stepping one instance of a bank is a step of that instance alone: every other instance is as before
(R38, R129). -/
def Obligations.InstancesDoNotInteract : Prop :=
  ∀ (k : Nat) (bank : List State), ∃ bank' : List State, stepInstance k bank = .next bank' ∧
    bank'.length = bank.length ∧
    (∀ j, j ≠ k → bank'[j]? = bank[j]?) ∧
    ∀ s, bank[k]? = some s → ∃ t : State, step s = .next t ∧ bank'[k]? = some t
end

