-- ==== Sys2Proof/Laws/State.lean ====
section
/-! SUPPORT. What each update of State does to each field: one lemma per field per update, true by rfl, so that no proof
unfolds a record update. -/

namespace Sys2Proof.Machine

section setState
variable (st : DecoderState) (s : State)
@[simp] theorem setState_state : (setState st s).state = st := rfl
@[simp] theorem setState_cursor : (setState st s).cursor = s.cursor := rfl
@[simp] theorem setState_status : (setState st s).status = s.status := rfl
@[simp] theorem setState_channel : (setState st s).channel = s.channel := rfl
@[simp] theorem setState_data0 : (setState st s).data0 = s.data0 := rfl
@[simp] theorem setState_data1 : (setState st s).data1 = s.data1 := rfl
@[simp] theorem setState_pending : (setState st s).pending = s.pending := rfl
@[simp] theorem setState_emitted : (setState st s).emitted = s.emitted := rfl
@[simp] theorem setState_freeCount : (setState st s).freeCount = s.freeCount := rfl
@[simp] theorem setState_resetSeen : (setState st s).resetSeen = s.resetSeen := rfl
end setState

section setCursor
variable (c : Slot) (s : State)
@[simp] theorem setCursor_state : (setCursor c s).state = s.state := rfl
@[simp] theorem setCursor_cursor : (setCursor c s).cursor = c := rfl
@[simp] theorem setCursor_status : (setCursor c s).status = s.status := rfl
@[simp] theorem setCursor_channel : (setCursor c s).channel = s.channel := rfl
@[simp] theorem setCursor_data0 : (setCursor c s).data0 = s.data0 := rfl
@[simp] theorem setCursor_data1 : (setCursor c s).data1 = s.data1 := rfl
@[simp] theorem setCursor_pending : (setCursor c s).pending = s.pending := rfl
@[simp] theorem setCursor_emitted : (setCursor c s).emitted = s.emitted := rfl
@[simp] theorem setCursor_freeCount : (setCursor c s).freeCount = s.freeCount := rfl
@[simp] theorem setCursor_resetSeen : (setCursor c s).resetSeen = s.resetSeen := rfl
end setCursor

section latchNibbles
variable (n c : Nibble) (s : State)
@[simp] theorem latchNibbles_state : (latchNibbles n c s).state = s.state := rfl
@[simp] theorem latchNibbles_cursor : (latchNibbles n c s).cursor = s.cursor := rfl
@[simp] theorem latchNibbles_status : (latchNibbles n c s).status = n := rfl
@[simp] theorem latchNibbles_channel : (latchNibbles n c s).channel = c := rfl
@[simp] theorem latchNibbles_data0 : (latchNibbles n c s).data0 = s.data0 := rfl
@[simp] theorem latchNibbles_data1 : (latchNibbles n c s).data1 = s.data1 := rfl
@[simp] theorem latchNibbles_pending : (latchNibbles n c s).pending = s.pending := rfl
@[simp] theorem latchNibbles_emitted : (latchNibbles n c s).emitted = s.emitted := rfl
@[simp] theorem latchNibbles_freeCount : (latchNibbles n c s).freeCount = s.freeCount := rfl
@[simp] theorem latchNibbles_resetSeen : (latchNibbles n c s).resetSeen = s.resetSeen := rfl
end latchNibbles

section slotWrite
variable (a : Slot) (v : Byte) (s : State)
@[simp] theorem slotWrite_state : (slotWrite a v s).state = s.state := rfl
@[simp] theorem slotWrite_cursor : (slotWrite a v s).cursor = s.cursor := rfl
@[simp] theorem slotWrite_status : (slotWrite a v s).status = s.status := rfl
@[simp] theorem slotWrite_channel : (slotWrite a v s).channel = s.channel := rfl
@[simp] theorem slotWrite_data0 : (slotWrite a v s).data0 = if a = 0#1 then v else s.data0 := rfl
@[simp] theorem slotWrite_data1 : (slotWrite a v s).data1 = if a = 0#1 then s.data1 else v := rfl
@[simp] theorem slotWrite_pending : (slotWrite a v s).pending = s.pending := rfl
@[simp] theorem slotWrite_emitted : (slotWrite a v s).emitted = s.emitted := rfl
@[simp] theorem slotWrite_freeCount : (slotWrite a v s).freeCount = s.freeCount := rfl
@[simp] theorem slotWrite_resetSeen : (slotWrite a v s).resetSeen = s.resetSeen := rfl
end slotWrite

section emit
variable (e : Event) (s : State)
@[simp] theorem emit_state : (emit e s).state = s.state := rfl
@[simp] theorem emit_cursor : (emit e s).cursor = s.cursor := rfl
@[simp] theorem emit_status : (emit e s).status = s.status := rfl
@[simp] theorem emit_channel : (emit e s).channel = s.channel := rfl
@[simp] theorem emit_data0 : (emit e s).data0 = s.data0 := rfl
@[simp] theorem emit_data1 : (emit e s).data1 = s.data1 := rfl
@[simp] theorem emit_pending : (emit e s).pending = s.pending := rfl
@[simp] theorem emit_emitted : (emit e s).emitted = s.emitted ++ [e] := rfl
@[simp] theorem emit_freeCount : (emit e s).freeCount = s.freeCount := rfl
@[simp] theorem emit_resetSeen : (emit e s).resetSeen = s.resetSeen := rfl
end emit

section unspecifyPayload
variable (s : State)
@[simp] theorem unspecifyPayload_state : (unspecifyPayload s).state = s.state := rfl
@[simp] theorem unspecifyPayload_cursor : (unspecifyPayload s).cursor = s.cursor := rfl
@[simp] theorem unspecifyPayload_status : (unspecifyPayload s).status = Config.resetStatus s.freeCount := rfl
@[simp] theorem unspecifyPayload_channel : (unspecifyPayload s).channel = Config.resetChannel s.freeCount := rfl
@[simp] theorem unspecifyPayload_data0 : (unspecifyPayload s).data0 = Config.resetData0 s.freeCount := rfl
@[simp] theorem unspecifyPayload_data1 : (unspecifyPayload s).data1 = Config.resetData1 s.freeCount := rfl
@[simp] theorem unspecifyPayload_pending : (unspecifyPayload s).pending = s.pending := rfl
@[simp] theorem unspecifyPayload_emitted : (unspecifyPayload s).emitted = s.emitted := rfl
@[simp] theorem unspecifyPayload_freeCount : (unspecifyPayload s).freeCount = s.freeCount + 1 := rfl
@[simp] theorem unspecifyPayload_resetSeen : (unspecifyPayload s).resetSeen = s.resetSeen := rfl
end unspecifyPayload

section markReset
variable (s : State)
@[simp] theorem markReset_state : (markReset s).state = s.state := rfl
@[simp] theorem markReset_cursor : (markReset s).cursor = s.cursor := rfl
@[simp] theorem markReset_status : (markReset s).status = s.status := rfl
@[simp] theorem markReset_channel : (markReset s).channel = s.channel := rfl
@[simp] theorem markReset_data0 : (markReset s).data0 = s.data0 := rfl
@[simp] theorem markReset_data1 : (markReset s).data1 = s.data1 := rfl
@[simp] theorem markReset_pending : (markReset s).pending = s.pending := rfl
@[simp] theorem markReset_emitted : (markReset s).emitted = s.emitted := rfl
@[simp] theorem markReset_freeCount : (markReset s).freeCount = s.freeCount := rfl
@[simp] theorem markReset_resetSeen : (markReset s).resetSeen = true := rfl
end markReset

section withPending
variable (xs : List Input) (s : State)
@[simp] theorem withPending_state : (s.withPending xs).state = s.state := rfl
@[simp] theorem withPending_cursor : (s.withPending xs).cursor = s.cursor := rfl
@[simp] theorem withPending_status : (s.withPending xs).status = s.status := rfl
@[simp] theorem withPending_channel : (s.withPending xs).channel = s.channel := rfl
@[simp] theorem withPending_data0 : (s.withPending xs).data0 = s.data0 := rfl
@[simp] theorem withPending_data1 : (s.withPending xs).data1 = s.data1 := rfl
@[simp] theorem withPending_pending : (s.withPending xs).pending = xs := rfl
@[simp] theorem withPending_emitted : (s.withPending xs).emitted = s.emitted := rfl
@[simp] theorem withPending_freeCount : (s.withPending xs).freeCount = s.freeCount := rfl
@[simp] theorem withPending_resetSeen : (s.withPending xs).resetSeen = s.resetSeen := rfl
@[simp] theorem withPending_withPending (ys : List Input) :
    (s.withPending ys).withPending xs = s.withPending xs := rfl
@[simp] theorem withPending_self : s.withPending s.pending = s := rfl
end withPending

section inputs
variable (x : Input) (xs : List Input) (s : State)
@[simp] theorem nextInput_withPending_nil : nextInput (s.withPending []) = .noByte := rfl
@[simp] theorem nextInput_withPending_cons : nextInput (s.withPending (x :: xs)) = x := rfl
@[simp] theorem consumeInput_withPending_nil : consumeInput (s.withPending []) = s.withPending [] := rfl
@[simp] theorem consumeInput_withPending_cons : consumeInput (s.withPending (x :: xs)) = s.withPending xs := rfl
@[simp] theorem nextInput_present : nextInput (s.present x) = x := rfl
@[simp] theorem consumeInput_present : consumeInput (s.present x) = s := rfl
@[simp] theorem consumeInput_state : (consumeInput s).state = s.state := rfl
@[simp] theorem consumeInput_cursor : (consumeInput s).cursor = s.cursor := rfl
@[simp] theorem consumeInput_status : (consumeInput s).status = s.status := rfl
@[simp] theorem consumeInput_channel : (consumeInput s).channel = s.channel := rfl
@[simp] theorem consumeInput_data0 : (consumeInput s).data0 = s.data0 := rfl
@[simp] theorem consumeInput_data1 : (consumeInput s).data1 = s.data1 := rfl
@[simp] theorem consumeInput_pending : (consumeInput s).pending = s.pending.tail := rfl
@[simp] theorem consumeInput_emitted : (consumeInput s).emitted = s.emitted := rfl
@[simp] theorem consumeInput_freeCount : (consumeInput s).freeCount = s.freeCount := rfl
@[simp] theorem consumeInput_resetSeen : (consumeInput s).resetSeen = s.resetSeen := rfl
end inputs

end Sys2Proof.Machine
end

