-- ==== Sys2Proof/Laws/Ops.lean ====
section
/-! SUPPORT. One specification lemma per shared operation: what the slot primitives, the message actions and the
classifier do, said once and cited instead of unfolding them. -/

namespace Sys2Proof

/-! ### Classification and fields -/

theorem classOf_eq_status_iff (b : Byte) : classOf b = .status ↔ b.getLsbD 7 = true := by
  unfold classOf Config.classBit; split <;> simp_all

theorem classOf_eq_data_iff (b : Byte) : classOf b = .data ↔ b.getLsbD 7 = false := by
  unfold classOf Config.classBit; split <;> simp_all

/-- The class as a range: `Status` bytes are exactly 0x80 to 0xFF (`30_encoding.md` R61). -/
theorem classOf_eq_status_iff_le (b : Byte) : classOf b = .status ↔ 0x80#8 ≤ b := by
  revert b; decide

/-- The class as a range: `Data` bytes are exactly 0x00 to 0x7F (`30_encoding.md` R61). -/
theorem classOf_eq_data_iff_lt (b : Byte) : classOf b = .data ↔ b < 0x80#8 := by
  revert b; decide

/-- A byte is its two nibbles, the high one first. -/
theorem highNibble_append_lowNibble (b : Byte) : highNibble b ++ lowNibble b = b := by
  revert b; decide

@[simp] theorem highNibble_append (n c : Nibble) : highNibble (n ++ c) = n := by
  revert n c; decide

@[simp] theorem lowNibble_append (n c : Nibble) : lowNibble (n ++ c) = c := by
  revert n c; decide

namespace Machine

/-! ### The slots (`20_memory.md` R41) -/

@[simp] theorem slotRead_zero (s : State) : slotRead s 0#1 = s.data0 := rfl

@[simp] theorem slotRead_one (s : State) : slotRead s 1#1 = s.data1 := rfl

/-- Reading after a write gives the value written at that slot and the old content at the other. -/
theorem slotRead_slotWrite (s : State) (a a' : Slot) (v : Byte) :
    slotRead (slotWrite a v s) a' = if a' = a then v else slotRead s a' := by
  have h : ∀ c : Slot, c = 0#1 ∨ c = 1#1 := by decide
  rcases h a with rfl | rfl <;> rcases h a' with rfl | rfl <;> rfl

/-- Equal slots are equal states of the storage: nothing else is addressed. -/
theorem slotRead_ext (s t : State) (h : ∀ a, slotRead s a = slotRead t a) : s.data0 = t.data0 ∧ s.data1 = t.data1 :=
  ⟨h 0#1, h 1#1⟩

/-! ### The message actions -/

/-- What one completed message adds to the log (R100, R103). -/
def dispatched (s : State) : List Event :=
  (if s.status = 0x9#4 then [.noteOn (nibbleArg s.channel) s.data0 s.data1] else []) ++
    [.report (nibbleArg s.status) (nibbleArg s.channel) s.data0 s.data1]

theorem isNoteOn_iff (n : Nibble) : isNoteOn n = true ↔ n = 0x9#4 := by
  simp [isNoteOn, Config.noteOnCode]

theorem noteOnAction_eq (s : State) : noteOnAction s = { s with
    emitted := s.emitted ++ if s.status = 0x9#4 then [.noteOn (nibbleArg s.channel) s.data0 s.data1] else [] } := by
  unfold noteOnAction
  by_cases h : s.status = 0x9#4
  · rw [if_pos ((isNoteOn_iff _).2 h), if_pos h]; rfl
  · rw [if_neg (mt (isNoteOn_iff _).1 h), if_neg h, List.append_nil]

theorem reportAction_eq (s : State) : reportAction s = { s with
    emitted := s.emitted ++ [.report (nibbleArg s.status) (nibbleArg s.channel) s.data0 s.data1] } := rfl

/-- `handle_message` appends the message's events and writes no register. -/
theorem dispatchMessage_eq (s : State) : dispatchMessage s = { s with emitted := s.emitted ++ dispatched s } := by
  simp [dispatchMessage, noteOnAction_eq, reportAction_eq, dispatched]

section dispatchMessage
variable (s : State)
@[simp] theorem dispatchMessage_state : (dispatchMessage s).state = s.state := by rw [dispatchMessage_eq]
@[simp] theorem dispatchMessage_cursor : (dispatchMessage s).cursor = s.cursor := by rw [dispatchMessage_eq]
@[simp] theorem dispatchMessage_status : (dispatchMessage s).status = s.status := by rw [dispatchMessage_eq]
@[simp] theorem dispatchMessage_channel : (dispatchMessage s).channel = s.channel := by rw [dispatchMessage_eq]
@[simp] theorem dispatchMessage_data0 : (dispatchMessage s).data0 = s.data0 := by rw [dispatchMessage_eq]
@[simp] theorem dispatchMessage_data1 : (dispatchMessage s).data1 = s.data1 := by rw [dispatchMessage_eq]
@[simp] theorem dispatchMessage_pending : (dispatchMessage s).pending = s.pending := by rw [dispatchMessage_eq]
@[simp] theorem dispatchMessage_emitted : (dispatchMessage s).emitted = s.emitted ++ dispatched s := by
  rw [dispatchMessage_eq]
@[simp] theorem dispatchMessage_freeCount : (dispatchMessage s).freeCount = s.freeCount := by rw [dispatchMessage_eq]
@[simp] theorem dispatchMessage_resetSeen : (dispatchMessage s).resetSeen = s.resetSeen := by rw [dispatchMessage_eq]
end dispatchMessage

end Machine

end Sys2Proof
end

