-- ==== Sys2Proof/Laws/PerInstr.lean ====
section
/-! SUPPORT. A family over the operations as syntax: the byte that carries a well-formed operation matches the `match`
and `mask` columns of its row of `spec/opcode_table.json`. -/

namespace Sys2Proof.Laws.MaskMatch

/-- The `mask` and `match` columns of the rows a byte selects; 0 where the table's mask is 0 or null. -/
def maskOf : Instr → Byte
  | .idleStatus _ _ => 0x80
  | .idleData _ => 0x80
  | .rxData0 _ => 0x00
  | .rxData1 _ => 0x00
  | .noByte => 0x00
  | .reset => 0x00
  | .classify _ => 0x00
  | .handleMessage => 0x00
  | .noteOn => 0x00
  | .report => 0x00
  | .rxStatusRestart _ _ => 0x80

def matchOf : Instr → Byte
  | .idleStatus _ _ => 0x80
  | .idleData _ => 0x00
  | .rxData0 _ => 0x00
  | .rxData1 _ => 0x00
  | .noByte => 0x00
  | .reset => 0x00
  | .classify _ => 0x00
  | .handleMessage => 0x00
  | .noteOn => 0x00
  | .report => 0x00
  | .rxStatusRestart _ _ => 0x80

/-- `(b and mask) == match` for the byte of a well-formed operation. -/
def Statement (i : Instr) : Prop :=
  i.wellFormed = true → ∀ b : Byte, encode i = some (.byte b) → b &&& maskOf i = matchOf i

theorem format_s (n c : Nibble) (h : statusNibbleOk n = true) : ((n ++ c : Byte) &&& 0x80) = 0x80 := by
  revert n c; decide

theorem format_d (d : BitVec 7) : ((0#1 ++ d : Byte) &&& 0x80) = 0x00 := by
  revert d; decide

theorem idleStatus (n c : Nibble) : Statement (.idleStatus n c) := by
  rintro h b ⟨⟩; exact format_s n c h

theorem idleData (d : BitVec 7) : Statement (.idleData d) := by
  rintro _ b ⟨⟩; exact format_d d

theorem rxData0 (b : Byte) : Statement (.rxData0 b) := by
  rintro _ b ⟨⟩; exact BitVec.and_zero

theorem rxData1 (b : Byte) : Statement (.rxData1 b) := by
  rintro _ b ⟨⟩; exact BitVec.and_zero

theorem noByte : Statement .noByte := by
  rintro _ b ⟨⟩

theorem reset : Statement .reset := by
  rintro _ b ⟨⟩

theorem classify (b : Byte) : Statement (.classify b) := by
  rintro _ b ⟨⟩

theorem handleMessage : Statement .handleMessage := by
  rintro _ b ⟨⟩

theorem noteOn : Statement .noteOn := by
  rintro _ b ⟨⟩

theorem report : Statement .report := by
  rintro _ b ⟨⟩

theorem rxStatusRestart (n c : Nibble) : Statement (.rxStatusRestart n c) := by
  rintro h b ⟨⟩; exact format_s n c h

end Sys2Proof.Laws.MaskMatch
end

