-- ==== Sys2Proof/Laws/Step.lean ====
section
/-! SUPPORT. Every operation completes, so a step is a function of states and a run is its iterate: the equations that
turn a statement about outcomes into one about states. -/

namespace Sys2Proof.Machine

/-- The state an operation leaves. -/
def effect (i : Instr) (s : State) : State :=
  match i with
  | .idleStatus n c => latchNibbles n c s |> setState .receivingData
  | .idleData _ => s
  | .rxData0 b => slotWrite 0#1 b s |> setCursor 1#1
  | .rxData1 b => slotWrite 1#1 b s |> dispatchMessage |> setCursor 0#1 |> setState .idle
  | .noByte => s
  | .reset => unspecifyPayload s |> setState .idle |> setCursor 0#1 |> markReset
  | .classify _ => s
  | .handleMessage => dispatchMessage s
  | .noteOn => noteOnAction s
  | .report => reportAction s
  | .rxStatusRestart n c => latchNibbles n c s |> setCursor 0#1

/-- From power-on, whatever the registers hold, RESET gives the state after reset (R143, R144). -/
theorem exec_reset_powerOn : exec .reset State.powerOn = .next State.reset := rfl

/-- The one-bit encoding of `state` tells the two states apart (`10_state.md` R21). -/
theorem stateCode_injective : Function.Injective Config.stateCode := by
  intro a b; cases a <;> cases b <;> decide

theorem exec_eq_effect (i : Instr) (s : State) : exec i s = .next (effect i s) := by
  cases i <;> rfl

/-- The state a step leaves. -/
def stepped (p : StatusMidmsg) (s : State) : State := effect (currentInstr p s) (consumeInput s)

theorem stepUnder_eq_stepped (p : StatusMidmsg) (s : State) : stepUnder p s = .next (stepped p s) :=
  exec_eq_effect _ _

theorem step_eq_stepped (s : State) : step s = .next (stepped .absorb s) :=
  stepUnder_eq_stepped _ s

theorem runUnder_eq_iterate (p : StatusMidmsg) (n : Nat) (s : State) :
    runUnder p n s = .next ((stepped p)^[n] s) := by
  induction n generalizing s with
  | zero => rfl
  | succ n ih => rw [runUnder, stepUnder_eq_stepped]; exact ih _

theorem core_run_eq_runUnder (n : Nat) (s : State) :
    Host.Core.run Sys2Proof.core n s = runUnder .absorb n s := by
  induction n generalizing s with
  | zero => rfl
  | succ n ih =>
    have h : Sys2Proof.core.step s = .next (stepped .absorb s) := step_eq_stepped s
    simp only [runUnder, stepUnder_eq_stepped, Host.Core.run, h]
    exact ih _

/-- One step on the element at the head of the input. -/
def taken (p : StatusMidmsg) (x : Input) (s : State) : State := effect (decode p s.state s.cursor x) s

theorem stepped_withPending_cons (p : StatusMidmsg) (x : Input) (xs : List Input) (s : State) :
    stepped p (s.withPending (x :: xs)) = taken p x (s.withPending xs) := rfl

/-- No operation looks at or changes what is still to come. -/
theorem taken_withPending (p : StatusMidmsg) (x : Input) (xs : List Input) (s : State) :
    taken p x (s.withPending xs) = (taken p x s).withPending xs := by
  unfold taken
  simp only [withPending_state, withPending_cursor]
  cases decode p s.state s.cursor x <;>
    simp only [effect, dispatchMessage_eq, noteOnAction_eq, reportAction_eq] <;> rfl

/-- A run over an input sequence is a fold of its elements. -/
theorem feedUnder_eq_foldl (p : StatusMidmsg) (xs : List Input) (s : State) :
    feedUnder p xs s = .next ((xs.foldl (fun t x => taken p x t) s).withPending []) := by
  unfold feedUnder
  rw [runUnder_eq_iterate]
  induction xs generalizing s with
  | nil => rfl
  | cons x xs ih =>
    rw [List.length_cons, Function.iterate_succ_apply, stepped_withPending_cons, taken_withPending, ih]
    rfl

theorem feed_eq_feedUnder (xs : List Input) (s : State) : feed xs s = feedUnder .absorb xs s :=
  core_run_eq_runUnder _ _

theorem feed_eq_foldl (xs : List Input) (s : State) :
    feed xs s = .next ((xs.foldl (fun t x => taken .absorb x t) s).withPending []) := by
  rw [feed_eq_feedUnder, feedUnder_eq_foldl]

/-- A property that holds after reset, does not look at the input, and is kept by every step holds of every reachable
state. -/
theorem Reachable.induct {P : State → Prop} (h0 : P State.reset) (hp : ∀ s xs, P s → P (s.withPending xs))
    (hs : ∀ s, P s → P (stepped .absorb s)) {s : State} (h : Reachable s) : P s := by
  induction h with
  | reset => exact h0
  | presented xs _ ih => exact hp _ xs ih
  | afterStep _ hst ih =>
    rw [step_eq_stepped] at hst
    cases hst
    exact hs _ ih

end Sys2Proof.Machine
end

