-- ==== Sys2Proof/Tests/Slice0.lean ====
section
/-! SUPPORT. Small tests, each with its expected result taken from a table or an example of the spec, and a witness for
the hypotheses of every statement that has some. V, M and S numbers are those of `95_test_vectors.md`. A register the
vector leaves unspecified holds an arbitrary literal here. -/

namespace Sys2Proof.Tests

open Sys2Proof.Machine

/-- A small state with nothing waiting and nothing emitted. -/
def st (q : DecoderState) (cur : Slot) (n c : Nibble) (d0 d1 : Byte) : State :=
  { state := q, cursor := cur, status := n, channel := c, data0 := d0, data1 := d1
    pending := [], emitted := [], freeCount := 0, resetSeen := true }

/-- The same with input waiting. -/
def given (xs : List Input) (s : State) : State := s.withPending xs

/-- Whether an outcome is exactly this next state with these events. -/
def leaves (o : Host.Outcome State Fault Refusal) (t : State) (es : List Event) : Bool :=
  match o with
  | .next u => decide (u = { t with emitted := es })
  | .fault _ => false
  | .refused _ => false

/-- A check on the next state, false of a stop. -/
def next (o : Host.Outcome State Fault Refusal) (f : State → Bool) : Bool :=
  match o with
  | .next u => f u
  | .fault _ => false
  | .refused _ => false

/-! ### WellFormed: an ill-formed term for each check (R62) -/

theorem test_wellFormed_refuses_idleStatus_with_top_bit_clear : (Instr.idleStatus 0x7 0x0).wellFormed = false := by decide
theorem test_wellFormed_refuses_restart_with_top_bit_clear : (Instr.rxStatusRestart 0x0 0xF).wellFormed = false := by decide
theorem test_wellFormed_admits_least_and_greatest_status :
    (Instr.idleStatus 0x8 0x0).wellFormed = true ∧ (Instr.rxStatusRestart 0xF 0xF).wellFormed = true := by decide

/-! ### Decoding: words written out from the formats of R62 to R64, one for each operation an element selects -/

/-- P1 step 1: 1001 0000 is format S with status nibble 1001 and channel 0000. -/
theorem test_decode_idleStatus : decode .absorb .idle 0 (.byte 0b10010000) = .idleStatus 0b1001 0b0000 := by decide
/-- P2 step 5: 1001 0011. -/
theorem test_decode_idleStatus_channel : decode .absorb .idle 0 (.byte 0b10010011) = .idleStatus 0b1001 0b0011 := by decide
/-- P2 step 3: 0111 1111 in `Idle` is format D. -/
theorem test_decode_idleData : decode .absorb .idle 0 (.byte 0b01111111) = .idleData 0b1111111 := by decide
/-- P7 step 2: 1111 1000 in `ReceivingData` is format X, bit 7 not examined. -/
theorem test_decode_rxData0 : decode .absorb .receivingData 0 (.byte 0b11111000) = .rxData0 0b11111000 := by decide
/-- P3 step 3: 1001 0001 at cursor 1 is format X, bit 7 not examined. -/
theorem test_decode_rxData1 : decode .absorb .receivingData 1 (.byte 0b10010001) = .rxData1 0b10010001 := by decide
/-- P3 step 3 under `restart`. -/
theorem test_decode_rxStatusRestart :
    decode .restart .receivingData 1 (.byte 0b10010001) = .rxStatusRestart 0b1001 0b0001 := by decide
/-- Under `restart` a byte with bit 7 clear is stored at either cursor value (R117). -/
theorem test_decode_restart_data :
    decode .restart .receivingData 0 (.byte 0b00111110) = .rxData0 0b00111110 ∧
    decode .restart .receivingData 1 (.byte 0b01000000) = .rxData1 0b01000000 := by decide
theorem test_decode_elements_without_byte :
    decode .absorb .receivingData 1 .reset = .reset ∧ decode .absorb .receivingData 1 .noByte = .noByte := by decide
/-- R72: these are selected by no element. -/
theorem test_encode_inner_operations :
    encode (.classify 0x90) = none ∧ encode .handleMessage = none ∧ encode .noteOn = none ∧ encode .report = none := by
  decide
/-- The table's `encoding` columns: 1ssscccc, 0ppppppp, pppppppp. -/
theorem test_encode_formats :
    encode (.idleStatus 0b1011 0b0001) = some (.byte 0b10110001) ∧ encode (.idleData 0b0111110) = some (.byte 0b00111110) ∧
    encode (.rxData0 0x91) = some (.byte 0x91) ∧ encode (.rxData1 0x91) = some (.byte 0x91) ∧
    encode (.rxStatusRestart 0b1001 0b0001) = some (.byte 0b10010001) := by decide
theorem test_tableWord :
    decodeTableWord 8 0x80 = some (.idleStatus 0x8 0x0) ∧ decodeTableWord 8 0x00 = some (.idleData 0x00) ∧
    decodeTableWord 8 0x100 = none ∧ decodeTableWord 16 0x80 = none := by decide
theorem test_tableWord_runs_after_reset :
    next (step (State.reset.withFetchWord 8 0x93)) (fun t =>
      t.state == .receivingData && t.cursor == 0 && t.status == 0x9 && t.channel == 0x3) = true := by decide

/-! ### CLASSIFY (section 2.1) -/

theorem test_classOf_greatest_data_and_least_status :
    classOf 0x7F = .data ∧ classOf 0x80 = .status ∧ classOf 0x00 = .data ∧ classOf 0xFF = .status := by decide
theorem test_classify_writes_nothing :
    leaves (exec (.classify 0xF8) (st .idle 0 0x9 0x0 0x3C 0x40)) (st .idle 0 0x9 0x0 0x3C 0x40) [] = true := by decide

/-! ### Single steps (section 2.2) -/

/-- V3. -/
theorem test_idleStatus_V3 : leaves (step (given [.byte 0xFF] (st .idle 0 0x1 0x2 0x33 0x44)))
    (st .receivingData 0 0xF 0xF 0x33 0x44) [] = true := by decide
/-- V4: the old nibbles are overwritten, the slots kept. -/
theorem test_idleStatus_V4 : leaves (step (given [.byte 0xB1] (st .idle 0 0x9 0x0 0x3C 0x40)))
    (st .receivingData 0 0xB 0x1 0x3C 0x40) [] = true := by decide
/-- V6. -/
theorem test_idleData_V6 : leaves (step (given [.byte 0x7F] (st .idle 0 0x1 0x2 0x33 0x44)))
    (st .idle 0 0x1 0x2 0x33 0x44) [] = true := by decide
/-- V7: no running status. -/
theorem test_idleData_V7 : leaves (step (given [.byte 0x3E] (st .idle 0 0x9 0x0 0x3C 0x40)))
    (st .idle 0 0x9 0x0 0x3C 0x40) [] = true := by decide
/-- V10: bit 7 set, absorbed, the nibbles unchanged. -/
theorem test_rxData0_V10 : leaves (step (given [.byte 0x91] (st .receivingData 0 0x9 0x0 0x11 0x22)))
    (st .receivingData 1 0x9 0x0 0x91 0x22) [] = true := by decide
/-- V11: `data[1]` untouched. -/
theorem test_rxData0_V11 : leaves (step (given [.byte 0xFF] (st .receivingData 0 0x9 0x0 0x11 0x22)))
    (st .receivingData 1 0x9 0x0 0xFF 0x22) [] = true := by decide
/-- V13. -/
theorem test_rxData1_V13 : leaves (step (given [.byte 0x7F] (st .receivingData 1 0x9 0xF 0x7F 0x00)))
    (st .idle 0 0x9 0xF 0x7F 0x7F) [.noteOn 0x0F 0x7F 0x7F, .report 0x09 0x0F 0x7F 0x7F] = true := by decide
/-- V18: the new `data[1]`, not the stale 0x99, is reported. -/
theorem test_rxData1_V18 : leaves (step (given [.byte 0x20] (st .receivingData 1 0xA 0x5 0x10 0x99)))
    (st .idle 0 0xA 0x5 0x10 0x20) [.report 0x0A 0x05 0x10 0x20] = true := by decide
/-- V20. -/
theorem test_noByte_V20 : leaves (step (given [.noByte] (st .receivingData 1 0x9 0x0 0x3C 0x55)))
    (st .receivingData 1 0x9 0x0 0x3C 0x55) [] = true := by decide
/-- V21: what the payload registers hold afterwards is unspecified, and not tested. -/
theorem test_reset_V21 : next (step (given [.reset] (st .receivingData 1 0x9 0x0 0x3C 0x55)))
    (fun t => t.state == .idle && t.cursor == 0 && t.emitted == []) = true := by decide
/-- V23: the byte presented in the cycle of the reset is lost. -/
theorem test_reset_V23 : next (clockEdge ⟨true, true, 0x40⟩ (st .receivingData 1 0x9 0x0 0x3C 0x55))
    (fun t => t.state == .idle && t.cursor == 0 && t.emitted == []) = true := by decide
/-- The example of R116. -/
theorem test_rxStatusRestart_cursor1 :
    leaves (stepUnder .restart (given [.byte 0x91] (st .receivingData 1 0x9 0x0 0x3C 0x55)))
      (st .receivingData 0 0x9 0x1 0x3C 0x55) [] = true := by decide
/-- P7 step 2 under `restart`. -/
theorem test_rxStatusRestart_cursor0 :
    leaves (stepUnder .restart (given [.byte 0xF8] (st .receivingData 0 0x9 0x0 0x11 0x22)))
      (st .receivingData 0 0xF 0x8 0x11 0x22) [] = true := by decide

/-! ### HANDLE_MESSAGE and its actions by status nibble (section 2.3) -/

theorem test_handleMessage_9 : leaves (exec .handleMessage (st .receivingData 1 0x9 0x2 0x45 0x64))
    (st .receivingData 1 0x9 0x2 0x45 0x64) [.noteOn 0x02 0x45 0x64, .report 0x09 0x02 0x45 0x64] = true := by decide
theorem test_handleMessage_8 : leaves (exec .handleMessage (st .receivingData 1 0x8 0x2 0x45 0x64))
    (st .receivingData 1 0x8 0x2 0x45 0x64) [.report 0x08 0x02 0x45 0x64] = true := by decide
/-- M1's event. -/
theorem test_noteOn_highest_channel : leaves (exec .noteOn (st .receivingData 1 0x9 0xF 0x7F 0x01))
    (st .receivingData 1 0x9 0xF 0x7F 0x01) [.noteOn 0x0F 0x7F 0x01] = true := by decide
/-- S3: note-off triggers no `NoteOnHandler` call. -/
theorem test_noteOn_not_for_note_off : leaves (exec .noteOn (st .receivingData 1 0x8 0x0 0x3C 0x40))
    (st .receivingData 1 0x8 0x0 0x3C 0x40) [] = true := by decide
theorem test_report_E : leaves (exec .report (st .receivingData 1 0xE 0x2 0x45 0x64))
    (st .receivingData 1 0xE 0x2 0x45 0x64) [.report 0x0E 0x02 0x45 0x64] = true := by decide

/-! ### The stream reading and the ports -/

/-- M8: 0xF8 is an ordinary status byte and takes two bytes. -/
theorem test_parse_M8 : parse [0xF8, 0x90, 0x3C, 0x40] = ⟨[.report 0x0F 0x08 0x90 0x3C], .idle, 0⟩ := by decide
/-- M12. -/
theorem test_parse_M12 : parse [0x90, 0x3C] = ⟨[], .receivingData, 1⟩ := by decide
/-- Section 2.6, cycle 4. -/
theorem test_ports_cycle4 :
    outPins (st .receivingData 1 0x9 0x0 0x3C 0x55) ⟨false, true, 0x40⟩ ⟨false, false, ⟨1, 2, 3, 4, 5, 6, 7⟩⟩ =
      ⟨true, true, ⟨0x00, 0x3C, 0x40, 0x09, 0x00, 0x3C, 0x40⟩⟩ := by decide
/-- Section 2.6, cycle 3: both strobes 0. -/
theorem test_ports_cycle3 :
    let o := outPins (st .receivingData 0 0x9 0x0 0x11 0x22) ⟨false, true, 0x3C⟩ ⟨true, true, ⟨1, 2, 3, 4, 5, 6, 7⟩⟩
    o.noteOnValid = false ∧ o.reportValid = false := by decide
/-- Section 2.6, cycle 0: both strobes any value, though `rst` is 1. -/
theorem test_ports_cycle0 :
    outPins State.powerOn ⟨true, false, 0x00⟩ ⟨true, false, ⟨1, 2, 3, 4, 5, 6, 7⟩⟩ =
      ⟨true, false, ⟨1, 2, 3, 4, 5, 6, 7⟩⟩ ∧
    outPins State.powerOn ⟨true, false, 0x00⟩ ⟨false, true, ⟨1, 2, 3, 4, 5, 6, 7⟩⟩ =
      ⟨false, true, ⟨1, 2, 3, 4, 5, 6, 7⟩⟩ := ⟨rfl, rfl⟩

/-! ### Witnesses: the hypotheses of each statement, met together -/

theorem witness_IdleStatusStartsMessage :
    let s := given [.byte 0x80, .reset] (st .idle 0 1 2 3 4)
    s.state = .idle ∧ s.pending = .byte 0x80 :: [.reset] ∧ (0x80 : Byte).getLsbD 7 = true := by decide

theorem witness_IdleDataIsDropped :
    let s := given [.byte 0x7F] (st .idle 0 1 2 3 4)
    s.state = .idle ∧ s.pending = .byte 0x7F :: [] ∧ (0x7F : Byte).getLsbD 7 = false := by decide

theorem witness_RxData0StoresFirstByte :
    let s := given [.byte 0xFF] (st .receivingData 0 9 2 3 4)
    s.state = .receivingData ∧ s.cursor = 0 ∧ s.pending = .byte 0xFF :: [] := by decide

theorem witness_RxData1CompletesMessage :
    let s := given [.byte 0x40] (st .receivingData 1 9 2 3 4)
    s.state = .receivingData ∧ s.cursor = 1 ∧ s.pending = .byte 0x40 :: [] := by decide

theorem witness_StatusRestartAbandonsPartialMessage :
    let s := given [.byte 0x91] (st .receivingData 1 9 2 3 4)
    s.state = .receivingData ∧ s.pending = .byte 0x91 :: [] ∧ (0x91 : Byte).getLsbD 7 = true := by decide

theorem witness_ReportFiresForEveryNibble : (0x8 : Nibble) ≤ (st .receivingData 1 8 2 3 4).status := by decide

theorem witness_HandleMessageDispatches :
    (∃ t, exec (decode .absorb .idle 0 (.byte 0x90)) (st .idle 0 1 2 3 4) = .next t ∧ t.emitted = []) ∧
    ∃ t, exec (decode .absorb .receivingData 1 (.byte 0x90)) (st .receivingData 1 9 2 3 4) = .next t ∧
      t.emitted.length = 2 :=
  ⟨⟨_, rfl, by decide⟩, _, rfl, by decide⟩

theorem witness_NoByteHoldsState :
    (given [.noByte] (st .receivingData 1 9 2 3 4)).pending = .noByte :: [] ∧
    (st .receivingData 1 9 2 3 4).pending = [] := by decide

theorem witness_ResetForcesIdle : (given [.reset] (st .receivingData 1 9 2 3 4)).pending = .reset :: [] := by decide

theorem witness_StepRunsDecodedInstruction :
    (given [.byte 0x90, .noByte] (st .idle 0 1 2 3 4)).pending = .byte 0x90 :: [.noByte] ∧
    (0x80 : Byte).getLsbD 7 = true ∧ (0x7F : Byte).getLsbD 7 = false := by decide

theorem witness_TableWordRunsAsDecoded : decodeTableWord 8 0xFF = some (.idleStatus 0xF 0xF) := by decide

theorem witness_DecodeTablesSelectExactlyOneRow :
    ((DecoderState.idle = .idle → (0 : Slot) = 0) ∧ (DecoderState.receivingData = .idle → (1 : Slot) = 0)) := by decide

/-- A step that latches nibbles, one that stores at cursor 1, and one that resets. -/
theorem witness_steps_of_each_kind :
    (∃ t, step (given [.byte 0x90] (st .idle 0 1 2 3 4)) = .next t) ∧
    (∃ t, step (given [.byte 0x90] (st .receivingData 1 9 2 3 4)) = .next t) ∧
    ∃ t, step (given [.reset] (st .receivingData 1 9 2 3 4)) = .next t :=
  ⟨⟨_, rfl⟩, ⟨_, rfl⟩, ⟨_, rfl⟩⟩

theorem witness_NibblesWrittenOnlyByIdleStatus :
    ∃ t, step (given [.byte 0x9F] (st .idle 0 1 2 3 4)) = .next t ∧ t.status = 9 ∧ t.channel = 15 :=
  ⟨_, rfl, by decide, by decide⟩

theorem witness_SlotsWrittenOnlyAtCursor :
    ∃ t, step (given [.byte 0x9F] (st .receivingData 1 9 2 3 4)) = .next t ∧ slotRead t 1 = 0x9F ∧ slotRead t 0 = 3 :=
  ⟨_, rfl, by decide, by decide⟩

/-- One event, two events, none. -/
theorem witness_EventsOnlyWhenMessageCompletes :
    (∃ t, step (given [.byte 1] (st .receivingData 1 8 2 3 4)) = .next t ∧ t.emitted.length = 1) ∧
    (∃ t, step (given [.byte 1] (st .receivingData 1 9 2 3 4)) = .next t ∧ t.emitted.length = 2) ∧
    ∃ t, step (given [.byte 1] (st .receivingData 0 9 2 3 4)) = .next t ∧ t.emitted.length = 0 :=
  ⟨⟨_, rfl, by decide⟩, ⟨_, rfl, by decide⟩, ⟨_, rfl, by decide⟩⟩

/-- The hypotheses, and the sequencing state the step leads to. -/
def moves (s : State) (q : DecoderState) (c : Slot) : Prop :=
  s.Inv1 ∧ ∃ t, step s = .next t ∧ t.state = q ∧ t.cursor = c

/-- Each byte row of R89, at the boundary values of bit 7 and of the cursor. -/
theorem witness_SequencingFollowsControlTable_bytes :
    moves (given [.byte 0x80] (st .idle 0 1 2 3 4)) .receivingData 0 ∧
    moves (given [.byte 0x7F] (st .idle 0 1 2 3 4)) .idle 0 ∧
    moves (given [.byte 0x80] (st .receivingData 0 9 2 3 4)) .receivingData 1 ∧
    moves (given [.byte 0x7F] (st .receivingData 1 9 2 3 4)) .idle 0 :=
  ⟨⟨by decide, _, rfl, rfl, rfl⟩, ⟨by decide, _, rfl, rfl, rfl⟩, ⟨by decide, _, rfl, rfl, rfl⟩, by decide, _, rfl, rfl, rfl⟩

/-- The rows without a byte, and a step with no element waiting (log entry 2). -/
theorem witness_SequencingFollowsControlTable_without_byte :
    moves (given [.reset] (st .receivingData 1 9 2 3 4)) .idle 0 ∧
    moves (given [.noByte] (st .receivingData 1 9 2 3 4)) .receivingData 1 ∧
    moves (given [] (st .receivingData 1 9 2 3 4)) .receivingData 1 :=
  ⟨⟨by decide, _, rfl, rfl, rfl⟩, ⟨by decide, _, rfl, rfl, rfl⟩, by decide, _, rfl, rfl, rfl⟩

theorem witness_EveryStepCompletes : (given [.byte 0] (st .idle 1 1 2 3 4)).pending = .byte 0 :: [] := by decide

theorem witness_StepsKeepCursorInvariants :
    (given [.byte 0x80] (st .receivingData 1 9 2 3 4)).Inv1 ∧
    (∃ t, stepUnder .absorb (given [.byte 0x80] (st .receivingData 1 9 2 3 4)) = .next t) ∧
    (∃ t, stepUnder .restart (given [.byte 0x80] (st .receivingData 1 9 2 3 4)) = .next t) ∧
    (st .receivingData 1 9 2 3 4).state = .receivingData :=
  ⟨by decide, ⟨_, rfl⟩, ⟨_, rfl⟩, rfl⟩

/-- A state in mid-message with a note-on already in the log. -/
def midMessage : State :=
  { st .receivingData 1 9 2 0x45 4 with
    pending := [.byte 0x64], emitted := [.noteOn 0x0F 0x7F 0x01, .report 0x09 0x0F 0x7F 0x01] }

theorem witness_StepsKeepMessageInvariant : midMessage.Inv ∧ ∃ t, step midMessage = .next t := ⟨by decide, _, rfl⟩

theorem witness_ReachableStatesSatisfyMessageInvariant :
    ∃ s, Reachable s ∧ s.state = .receivingData ∧ s.status = 0x9 :=
  ⟨_, .afterStep (.presented [.byte 0x90] .reset) rfl, by decide, by decide⟩

/-- Both ends of the sequencing range: (`Idle`, 0) and (`ReceivingData`, 1) satisfy the right side, (`Idle`, 1) does not. -/
theorem witness_ReachedSequencingStatesAreThree :
    (DecoderState.idle = .idle → (0 : Slot) = 0) ∧ (DecoderState.receivingData = .idle → (1 : Slot) = 0) ∧
    ¬(DecoderState.idle = .idle → (1 : Slot) = 0) := by decide

theorem witness_RestartStepsKeepDataRange :
    midMessage.RestartInv ∧ ∃ t, stepUnder .restart midMessage = .next t := ⟨by decide, _, rfl⟩

theorem witness_idle_start : (st .idle 0 1 2 3 4).state = .idle ∧ (st .idle 0 1 2 3 4).cursor = 0 := by decide

theorem witness_StreamReadingAgreesWithParse :
    (st .idle 0 1 2 3 4).state = .idle ∧ (st .idle 0 1 2 3 4).cursor = 0 := witness_idle_start

theorem witness_NoByteElementsChangeNothing :
    ([Input.noByte, .byte 0x90, .noByte, .noByte].filter (fun x => x != .noByte)) =
      [Input.byte 0x90].filter (fun x => x != .noByte) := by decide

/-- Two states that differ in every payload register and in the free-value counter. -/
theorem witness_UnspecifiedValuesReachNoEvent :
    let s := st .idle 0 1 2 3 4
    let s' := { st .idle 0 9 5 6 7 with freeCount := 8 }
    s.state = .idle ∧ s.cursor = 0 ∧ s'.state = .idle ∧ s'.cursor = 0 ∧ s'.emitted = s.emitted := by decide

/-- Both ends of the note-on range and the byte below it. -/
theorem witness_ThreeBytesMakeOneMessage :
    (st .idle 0 1 2 3 4).state = .idle ∧ (st .idle 0 1 2 3 4).cursor = 0 ∧
    (0x8F : Byte).getLsbD 7 = true ∧ (0x90 : Byte).getLsbD 7 = true ∧ (0x9F : Byte).getLsbD 7 = true := by decide

theorem witness_RepeatedMessageIsReportedTwice :
    (st .idle 0 1 2 3 4).state = .idle ∧ (st .idle 0 1 2 3 4).cursor = 0 ∧ (0x90 : Byte).getLsbD 7 = true := by decide

theorem witness_RunningStatusIsNotDecoded :
    (st .idle 0 1 2 3 4).state = .idle ∧ (st .idle 0 1 2 3 4).cursor = 0 ∧ (0x90 : Byte).getLsbD 7 = true ∧
    ∀ d ∈ ([0x3E, 0x40, 0x7F] : List Byte), d.getLsbD 7 = false := by decide

theorem witness_DataBytesInIdleAreIgnored :
    (st .idle 0 1 2 3 4).state = .idle ∧ (∀ d ∈ ([0x00, 0x7F] : List Byte), d.getLsbD 7 = false) ∧
    (0x80 : Byte).getLsbD 7 = true := by decide

theorem witness_AbsorbedStatusByteDamageIsBounded :
    (st .idle 0 1 2 3 4).state = .idle ∧ (st .idle 0 1 2 3 4).cursor = 0 ∧ (0x90 : Byte).getLsbD 7 = true ∧
    (0x91 : Byte).getLsbD 7 = true ∧ (0x92 : Byte).getLsbD 7 = true ∧
    ∀ d ∈ ([0x3E, 0x40] : List Byte), d.getLsbD 7 = false := by decide

theorem witness_ResetDiscardsPartialMessage : ∀ d ∈ ([0x40, 0x00] : List Byte), d.getLsbD 7 = false := by decide

theorem witness_TwoBytesReturnToIdle :
    (st .receivingData 0 9 2 3 4).state = .receivingData ∧ (st .receivingData 0 9 2 3 4).cursor = 0 ∧
    (st .receivingData 1 9 2 3 4).state = .receivingData ∧ (st .receivingData 1 9 2 3 4).cursor = 1 := by decide

theorem witness_PartialMessageIsHeldWithoutTimeout :
    (st .receivingData 0 9 2 3 4).state = .receivingData ∧ (st .receivingData 0 9 2 3 4).cursor = 0 := by decide

theorem witness_EachMessageConsumesThreeBytes :
    (st .idle 0 1 2 3 4).state = .idle ∧ (st .idle 0 1 2 3 4).cursor = 0 := witness_idle_start

/-- A whole message, a dropped byte, a reset in mid-message and an empty cycle. -/
theorem witness_PoliciesAgreeWithoutStatusMidMessage :
    noStatusMidMessage [.byte 0x90, .noByte, .byte 0x3C, .byte 0x40, .byte 0x41, .byte 0x91, .reset, .byte 0x92]
      (st .idle 0 1 2 3 4) = true := by decide

/-- The condition is not always true: a status byte in mid-message. -/
theorem witness_policies_can_differ : noStatusMidMessage [.byte 0x90, .byte 0x91] (st .idle 0 1 2 3 4) = false := by decide

theorem witness_RestartHoldsThroughStatusBytes :
    (st .receivingData 1 9 2 3 4).Inv1 ∧ (∀ d ∈ ([0x80, 0xFF] : List Byte), d.getLsbD 7 = true) ∧
    (0x91 : Byte).getLsbD 7 = true := by decide

theorem witness_ExampleStreamUnderBothPolicies :
    (st .idle 0 1 2 3 4).state = .idle ∧ (st .idle 0 1 2 3 4).cursor = 0 := witness_idle_start

theorem witness_PortStrobesFollowTheState :
    let o := outPins (st .receivingData 1 9 2 3 4) ⟨false, true, 0x40⟩ ⟨false, false, ⟨1, 2, 3, 4, 5, 6, 7⟩⟩
    (st .receivingData 1 9 2 3 4).resetSeen = true ∧ o.noteOnValid = true ∧ o.reportValid = true := by decide

theorem witness_PortTraceIsTheEventLog :
    (st .receivingData 1 9 2 3 4).pending = [] ∧ (st .receivingData 1 9 2 3 4).resetSeen = true ∧
    State.powerOn.pending = [] ∧ State.powerOn.resetSeen = false ∧ (⟨true, true, 0x40⟩ : InPins).rst = true := by decide

theorem witness_ResetPinHasPriorityAndMayBeHeld :
    (st .receivingData 1 9 2 3 4).resetSeen = true ∧ ∀ q ∈ ([⟨true, true, 0x40⟩, ⟨true, false, 0x00⟩] : List InPins), q.rst = true := by decide

theorem witness_OutputsAreUnspecifiedUntilFirstReset :
    State.powerOn.resetSeen = false ∧ nextInput (State.powerOn.present .reset) = .reset ∧
    nextInput (State.powerOn.present (.byte 0x90)) ≠ .reset := by decide

theorem witness_InstancesDoNotInteract :
    (1 : Nat) ≠ 0 ∧ [st .idle 0 1 2 3 4, st .receivingData 1 9 2 3 4][1]? = some (st .receivingData 1 9 2 3 4) := by decide

end Sys2Proof.Tests
end

section
/-! SUPPORT. The signal level (`10_state.md` R32 to R35): how a cycle is sampled, when each strobe is 1, what the payload
ports then carry, and the events the sinks take in one cycle. The two obligations of this part follow from them. -/

namespace Sys2Proof.Machine

/-! ### The element of a cycle (R34) -/

@[simp] theorem elementOf_rst (v : Bool) (b : Byte) : elementOf ⟨true, v, b⟩ = .reset := rfl

@[simp] theorem elementOf_rxValid (b : Byte) : elementOf ⟨false, true, b⟩ = .byte b := rfl

@[simp] theorem elementOf_noByte (b : Byte) : elementOf ⟨false, false, b⟩ = .noByte := rfl

theorem clockEdge_eq_step (p : InPins) (s : State) :
    clockEdge p s = step { s with pending := elementOf p :: s.pending } := rfl

/-! ### The strobes and the payload ports (R35) -/

theorem reportStrobe_iff (s : State) (p : InPins) : reportStrobe s p = true ↔
    p.rst = false ∧ p.rxValid = true ∧ s.state = .receivingData ∧ s.cursor = 1#1 := by
  simp [reportStrobe, and_assoc]

theorem noteOnStrobe_iff (s : State) (p : InPins) :
    noteOnStrobe s p = true ↔ reportStrobe s p = true ∧ s.status = 0x9#4 := by
  rw [noteOnStrobe, Bool.and_eq_true, isNoteOn_iff]

/-- After the first RESET the ports are those of R33 and R35. -/
theorem outPins_of_resetSeen {s : State} (hseen : s.resetSeen = true) (p : InPins) (x : OutPins) :
    outPins s p x = specifiedPins s p x.payload :=
  if_pos hseen

@[simp] theorem specifiedPins_noteOnValid (s : State) (p : InPins) (x : OutPayload) :
    (specifiedPins s p x).noteOnValid = noteOnStrobe s p := rfl

@[simp] theorem specifiedPins_reportValid (s : State) (p : InPins) (x : OutPayload) :
    (specifiedPins s p x).reportValid = reportStrobe s p := rfl

theorem specifiedPins_noteOn_payload {s : State} {p : InPins} (h : noteOnStrobe s p = true) (x : OutPayload) :
    (specifiedPins s p x).payload.noteOnChannel = nibbleArg s.channel ∧
    (specifiedPins s p x).payload.noteOnNote = s.data0 ∧
    (specifiedPins s p x).payload.noteOnVelocity = p.rxByte :=
  ⟨if_pos h, if_pos h, if_pos h⟩

theorem specifiedPins_report_payload {s : State} {p : InPins} (h : reportStrobe s p = true) (x : OutPayload) :
    (specifiedPins s p x).payload.reportStatus = nibbleArg s.status ∧
    (specifiedPins s p x).payload.reportChannel = nibbleArg s.channel ∧
    (specifiedPins s p x).payload.reportData0 = s.data0 ∧
    (specifiedPins s p x).payload.reportData1 = p.rxByte :=
  ⟨if_pos h, if_pos h, if_pos h, if_pos h⟩

/-! ### The events of a cycle (R35, R103) -/

/-- The sinks take, in a cycle with `report_valid`, the events of the message that the presented byte completes, and
nothing in any other cycle. -/
theorem portEvents_specifiedPins (s : State) (p : InPins) (x : OutPayload) :
    portEvents (specifiedPins s p x) =
      if reportStrobe s p = true then dispatched (slotWrite 1#1 p.rxByte s) else [] := by
  by_cases h : reportStrobe s p = true
  · by_cases h9 : s.status = 0x9#4
    · have hnote : noteOnStrobe s p = true := (noteOnStrobe_iff s p).2 ⟨h, h9⟩
      simp [portEvents, specifiedPins_report_payload h, specifiedPins_noteOn_payload hnote, hnote, h, dispatched, h9]
    · have hnote : ¬ noteOnStrobe s p = true := fun hn => h9 ((noteOnStrobe_iff s p).1 hn).2
      simp [portEvents, specifiedPins_report_payload h, hnote, h, dispatched, h9]
  · have hnote : ¬ noteOnStrobe s p = true := fun hn => h ((noteOnStrobe_iff s p).1 hn).1
    simp [portEvents, hnote, h]

/-! ### The obligations -/

/-- Settles O45: one equation per row of R34, and the edge is a step by definition. -/
theorem clockEdgeStepsOnTheSampledElement : Obligations.ClockEdgeStepsOnTheSampledElement :=
  ⟨elementOf_rst, elementOf_rxValid, elementOf_noByte, clockEdge_eq_step⟩

/-- Settles O46: after the first RESET the ports are the Mealy functions of R35, and `note_on_valid` implies
`report_valid`, so a note-on cycle shows the whole dispatch of the message. -/
theorem portStrobesFollowTheState : Obligations.PortStrobesFollowTheState := by
  intro s p x hseen
  rw [outPins_of_resetSeen hseen]
  refine ⟨reportStrobe_iff s p, noteOnStrobe_iff s p, fun h => specifiedPins_noteOn_payload h _,
    fun h => specifiedPins_report_payload h _, fun h => ?_⟩
  obtain ⟨hreport, h9⟩ := (noteOnStrobe_iff s p).1 h
  rw [portEvents_specifiedPins, if_pos hreport]
  simp [dispatched, nibbleArg, h9]

end Sys2Proof.Machine
end

section
/-! SUPPORT. The decode tables against the decoder (`30_encoding.md` R66, `42_variant_restart.md` R117). Neither the rows
nor the decoder's choice depend on more of a byte than its class, so one byte of each class stands for all 256. -/

namespace Sys2Proof

/-- The least byte of a class (`30_encoding.md` R61). -/
def classByte : ByteClass → Byte
  | .status => 0x80
  | .data => 0x00

@[simp] theorem classOf_classByte (k : ByteClass) : classOf (classByte k) = k := by
  cases k <;> rfl

/-! ### The rows look at the class only -/

/-- R66, R117: a row's mask is the class bit or nothing. -/
theorem mask_of_mem_decodeTable (p : StatusMidmsg) : ∀ r ∈ decodeTable p, r.mask = 0x00 ∨ r.mask = 0x80 := by
  cases p <;> decide

/-- The class bit is all that a mask of the tables keeps of a byte. -/
theorem classByte_and_mask {m : Byte} (hm : m = 0x00 ∨ m = 0x80) (b : Byte) : classByte (classOf b) &&& m = b &&& m := by
  rcases hm with rfl | rfl
  · exact BitVec.and_zero.trans BitVec.and_zero.symm
  · revert b; decide

theorem DecodeRow.applies_classByte {r : DecodeRow} (hm : r.mask = 0x00 ∨ r.mask = 0x80) (st : DecoderState) (c : Slot)
    (b : Byte) : r.applies st c (classByte (classOf b)) = r.applies st c b := by
  simp only [DecodeRow.applies, classByte_and_mask hm]

theorem filter_decodeTable_classByte (p : StatusMidmsg) (st : DecoderState) (c : Slot) (b : Byte) :
    (decodeTable p).filter (·.applies st c (classByte (classOf b))) = (decodeTable p).filter (·.applies st c b) :=
  List.filter_congr fun r hr => DecodeRow.applies_classByte (mask_of_mem_decodeTable p r hr) st c b

/-! ### The decoder looks at the class only -/

theorem mnemonic_decodeIdle_classByte (b : Byte) :
    (decodeIdle (classByte (classOf b))).mnemonic = (decodeIdle b).mnemonic := by
  unfold decodeIdle
  rw [classOf_classByte]
  cases classOf b <;> rfl

theorem mnemonic_decodeSlot (c : Slot) (b b' : Byte) : (decodeSlot c b).mnemonic = (decodeSlot c b').mnemonic := by
  unfold decodeSlot
  split <;> rfl

theorem mnemonic_decodeReceiving_classByte (p : StatusMidmsg) (c : Slot) (b : Byte) :
    (decodeReceiving p c (classByte (classOf b))).mnemonic = (decodeReceiving p c b).mnemonic := by
  cases p with
  | absorb => exact mnemonic_decodeSlot c _ b
  | restart =>
    simp only [decodeReceiving, classOf_classByte]
    cases classOf b with
    | status => rfl
    | data => exact mnemonic_decodeSlot c _ b

theorem mnemonic_decode_classByte (p : StatusMidmsg) (st : DecoderState) (c : Slot) (b : Byte) :
    (decode p st c (.byte (classByte (classOf b)))).mnemonic = (decode p st c (.byte b)).mnemonic := by
  cases st with
  | idle => exact mnemonic_decodeIdle_classByte b
  | receivingData => exact mnemonic_decodeReceiving_classByte p c b

/-! ### The tables, one byte of each class -/

/-- The tables read row by row: what applies to the least byte of a class is the decoder's operation, once. -/
theorem operations_decodeTable_classByte (p : StatusMidmsg) {st : DecoderState} {c : Slot} (hinv : st = .idle → c = 0#1)
    (k : ByteClass) : ((decodeTable p).filter (·.applies st c (classByte k))).map (·.operation) =
      [(decode p st c (.byte (classByte k))).mnemonic] := by
  cases st with
  | idle =>
    obtain rfl := hinv rfl
    cases p <;> cases k <;> decide
  | receivingData =>
    clear hinv
    revert c
    cases p <;> cases k <;> decide

/-! ### The obligation -/

/-- Settles O15: rows and decoder alike see a byte's class only, and for one byte of each class the tables are read off. -/
theorem decodeTablesSelectExactlyOneRow : Obligations.DecodeTablesSelectExactlyOneRow := by
  intro p st c b hinv
  rw [← List.map_eq_singleton_iff, ← filter_decodeTable_classByte, ← mnemonic_decode_classByte]
  exact operations_decodeTable_classByte p hinv (classOf b)

end Sys2Proof
end

section
/-! SUPPORT. `process_byte` (`40_process_byte.md` R80 to R87): what the decoder selects for a byte, what each byte
operation does to the state, and the step as the one after the other. The obligations of this part follow from them. -/

namespace Sys2Proof

/-! ### The operation a byte selects (R80, R81) -/

theorem decode_idle_of_status {b : Byte} (h : classOf b = .status) (p : StatusMidmsg) (c : Slot) :
    decode p .idle c (.byte b) = .idleStatus (highNibble b) (lowNibble b) := by
  rw [decode, decodeByte, decodeIdle, h]

theorem decode_idle_of_data {b : Byte} (h : classOf b = .data) (p : StatusMidmsg) (c : Slot) :
    decode p .idle c (.byte b) = .idleData (lowSeven b) := by
  rw [decode, decodeByte, decodeIdle, h]

/-- Under `absorb` the byte's class is not consulted in `ReceivingData` (R66). -/
theorem decode_absorb_receivingData (c : Slot) (b : Byte) :
    decode .absorb .receivingData c (.byte b) = if c = 0#1 then .rxData0 b else .rxData1 b := rfl

theorem decodeSlot_eq_or (c : Slot) (b : Byte) : decodeSlot c b = .rxData0 b ∨ decodeSlot c b = .rxData1 b :=
  ite_eq_or_eq _ _ _

/-- The class bit is the top bit of the status nibble (`30_encoding.md` R62). -/
theorem statusNibbleOk_highNibble (b : Byte) : statusNibbleOk (highNibble b) = b.getLsbD 7 := by
  simp [statusNibbleOk, highNibble]

theorem statusNibbleOk_of_status {b : Byte} (h : classOf b = .status) : statusNibbleOk (highNibble b) = true := by
  rw [statusNibbleOk_highNibble, (classOf_eq_status_iff b).1 h]

/-! ### What holds of every selected operation -/

theorem decodeSlot_wellFormed (c : Slot) (b : Byte) : (decodeSlot c b).wellFormed = true := by
  rcases decodeSlot_eq_or c b with h | h <;> rw [h] <;> rfl

theorem decodeIdle_wellFormed (b : Byte) : (decodeIdle b).wellFormed = true := by
  unfold decodeIdle
  cases h : classOf b with
  | status => exact statusNibbleOk_of_status h
  | data => rfl

theorem decodeReceiving_wellFormed (p : StatusMidmsg) (c : Slot) (b : Byte) :
    (decodeReceiving p c b).wellFormed = true := by
  cases p with
  | absorb => exact decodeSlot_wellFormed c b
  | restart =>
    unfold decodeReceiving
    cases h : classOf b with
    | status => exact statusNibbleOk_of_status h
    | data => exact decodeSlot_wellFormed c b

/-- The decoder selects only operations whose fields their format admits. -/
theorem decode_wellFormed (p : StatusMidmsg) (st : DecoderState) (c : Slot) (x : Input) :
    (decode p st c x).wellFormed = true := by
  cases x with
  | reset => rfl
  | noByte => rfl
  | byte b =>
    cases st with
    | idle => exact decodeIdle_wellFormed b
    | receivingData => exact decodeReceiving_wellFormed p c b

/-- Under `absorb` a byte selects one of the four byte operations, whatever the sequencing state (R87). -/
theorem mnemonic_decode_absorb_byte_mem (st : DecoderState) (c : Slot) (b : Byte) :
    (decode .absorb st c (.byte b)).mnemonic ∈ ["IDLE_STATUS", "IDLE_DATA", "RX_DATA0", "RX_DATA1"] := by
  cases st with
  | idle =>
    cases h : classOf b with
    | status => rw [decode_idle_of_status h]; simp [Instr.mnemonic]
    | data => rw [decode_idle_of_data h]; simp [Instr.mnemonic]
  | receivingData =>
    rw [decode_absorb_receivingData]
    split <;> simp [Instr.mnemonic]

namespace Machine

/-! ### What the byte operations do (R82 to R85) -/

theorem exec_idleStatus (n c : Nibble) (s : State) :
    exec (.idleStatus n c) s = .next { s with status := n, channel := c, state := .receivingData } := rfl

theorem exec_idleData (d : BitVec 7) (s : State) : exec (.idleData d) s = .next s := rfl

theorem exec_classify (b : Byte) (s : State) : exec (.classify b) s = .next s := rfl

theorem exec_rxData0 (b : Byte) (s : State) : exec (.rxData0 b) s = .next { s with data0 := b, cursor := 1#1 } := rfl

/-- The message is dispatched with the byte just stored (R85, R100). -/
theorem exec_rxData1 (b : Byte) (s : State) : exec (.rxData1 b) s = .next { s with
    data1 := b, cursor := 0#1, state := .idle
    emitted := s.emitted ++
      (if s.status = 0x9#4 then [.noteOn (s.channel.setWidth 8) s.data0 b] else []) ++
      [.report (s.status.setWidth 8) (s.channel.setWidth 8) s.data0 b] } := by
  rw [exec_eq_effect, effect, dispatchMessage_eq, dispatched, ← List.append_assoc]
  rfl

/-! ### The step (R80) -/

theorem nextInput_of_pending_cons {s : State} {x : Input} {rest : List Input} (h : s.pending = x :: rest) :
    nextInput s = x := by
  rw [nextInput, h]

theorem consumeInput_of_pending_cons {s : State} {x : Input} {rest : List Input} (h : s.pending = x :: rest) :
    consumeInput s = { s with pending := rest } := by
  rw [consumeInput, h, List.tail_cons]

theorem stepUnder_of_pending_cons (p : StatusMidmsg) {s : State} {x : Input} {rest : List Input}
    (h : s.pending = x :: rest) :
    stepUnder p s = exec (decode p s.state s.cursor x) { s with pending := rest } := by
  rw [stepUnder, currentInstr, nextInput_of_pending_cons h, consumeInput_of_pending_cons h]

theorem step_of_pending_cons {s : State} {x : Input} {rest : List Input} (h : s.pending = x :: rest) :
    step s = exec (decode .absorb s.state s.cursor x) { s with pending := rest } :=
  stepUnder_of_pending_cons .absorb h

/-! ### The obligations -/

/-- Settles O1: bit 7 set is class `Status`, which selects IDLE_STATUS in `Idle`. -/
theorem idleStatusStartsMessage : Obligations.IdleStatusStartsMessage := by
  refine ⟨exec_idleStatus, fun b rest s hidle hpending hbit => ?_⟩
  rw [step_of_pending_cons hpending, hidle, decode_idle_of_status ((classOf_eq_status_iff b).2 hbit)]
  exact exec_idleStatus _ _ _

/-- Settles O2: bit 7 clear is class `Data`, which selects IDLE_DATA in `Idle`. -/
theorem idleDataIsDropped : Obligations.IdleDataIsDropped := by
  refine ⟨exec_idleData, fun b rest s hidle hpending hbit => ?_⟩
  rw [step_of_pending_cons hpending, hidle, decode_idle_of_data ((classOf_eq_data_iff b).2 hbit)]
  exact exec_idleData _ _

/-- Settles O3: in `ReceivingData` cursor 0 selects RX_DATA0 for every byte. -/
theorem rxData0StoresFirstByte : Obligations.RxData0StoresFirstByte := by
  refine ⟨exec_rxData0, fun b rest s hreceiving hcursor hpending => ?_⟩
  rw [step_of_pending_cons hpending, hreceiving, hcursor]
  exact exec_rxData0 _ _

/-- Settles O4: in `ReceivingData` cursor 1 selects RX_DATA1 for every byte. -/
theorem rxData1CompletesMessage : Obligations.RxData1CompletesMessage := by
  refine ⟨exec_rxData1, fun b rest s hreceiving hcursor hpending => ?_⟩
  rw [step_of_pending_cons hpending, hreceiving, hcursor]
  exact exec_rxData1 _ _

/-- Settles O5: one decoder equation for each class in `Idle`, one for both in `ReceivingData`. -/
theorem classifyTestsBitSeven : Obligations.ClassifyTestsBitSeven := by
  refine ⟨exec_classify, fun b => rfl, fun b c => ?_, fun b c => decode_absorb_receivingData c b⟩
  cases h : classOf b with
  | status => exact decode_idle_of_status h .absorb c
  | data => exact decode_idle_of_data h .absorb c

/-- Settles O12: the step is the decoded operation, which is well formed, and the five lines of R80 are the decoder's
equations. -/
theorem stepRunsDecodedInstruction : Obligations.StepRunsDecodedInstruction :=
  ⟨fun _ _ _ hpending => ⟨step_of_pending_cons hpending, decode_wellFormed _ _ _ _⟩,
    fun _ _ => ⟨rfl, rfl⟩,
    fun b c hbit => decode_idle_of_status ((classOf_eq_status_iff b).2 hbit) .absorb c,
    fun b c hbit => decode_idle_of_data ((classOf_eq_data_iff b).2 hbit) .absorb c,
    decode_absorb_receivingData 0#1, decode_absorb_receivingData 1#1⟩

/-- Settles O21: every operation completes, so every step does. -/
theorem everyStepCompletes : Obligations.EveryStepCompletes :=
  ⟨fun b _ s _ => ⟨mnemonic_decode_absorb_byte_mem s.state s.cursor b, _, step_eq_stepped s⟩,
    fun p s => ⟨_, stepUnder_eq_stepped p s⟩⟩

end Machine

end Sys2Proof
end

section
/-! SUPPORT. `handle_message` (`41_handle_message.md` R100 to R105): the arguments of its events, which operations the
decoder selects and that of these RX_DATA1 alone dispatches, and a message as three steps from (`Idle`, 0). The
obligations of this part follow from them. -/

namespace Sys2Proof

/-! ### Every selected operation meets its condition (R66, R117) -/

theorem selectedIn_decodeIdle (p : StatusMidmsg) (c : Slot) (b : Byte) : selectedIn p .idle c (decodeIdle b) = true := by
  unfold decodeIdle
  cases classOf b <;> rfl

/-- The rows that store a byte: any byte under `absorb`, one of class `Data` under `restart`. -/
theorem selectedIn_decodeSlot {p : StatusMidmsg} {b : Byte} (h : p = .absorb ∨ classOf b = .data) (c : Slot) :
    selectedIn p .receivingData c (decodeSlot c b) = true := by
  rcases BitVec.eq_zero_or_eq_one c with rfl | rfl <;> simpa [decodeSlot, selectedIn] using h

theorem selectedIn_decodeReceiving (p : StatusMidmsg) (c : Slot) (b : Byte) :
    selectedIn p .receivingData c (decodeReceiving p c b) = true := by
  cases p with
  | absorb => exact selectedIn_decodeSlot (.inl rfl) c
  | restart =>
    unfold decodeReceiving
    cases h : classOf b with
    | status => rfl
    | data => exact selectedIn_decodeSlot (.inr h) c

/-- The decoder selects an operation only in the sequencing states of its row. -/
theorem selectedIn_decode (p : StatusMidmsg) (st : DecoderState) (c : Slot) (x : Input) :
    selectedIn p st c (decode p st c x) = true := by
  cases x with
  | reset => rfl
  | noByte => rfl
  | byte b =>
    cases st with
    | idle => exact selectedIn_decodeIdle p c b
    | receivingData => exact selectedIn_decodeReceiving p c b

/-- What no row selects is never decoded (R72). -/
theorem decode_ne_of_not_selectedIn {p : StatusMidmsg} {st : DecoderState} {c : Slot} {i : Instr}
    (h : selectedIn p st c i = false) (x : Input) : decode p st c x ≠ i := by
  rintro rfl
  rw [selectedIn_decode] at h
  cases h

namespace Machine

/-! ### The arguments of the events (R101, R102) -/

theorem nibbleArg_le (n : Nibble) : nibbleArg n ≤ 0x0F#8 := by
  revert n; decide

/-- A nibble that IDLE_STATUS has written stays at least 0x8 when zero-extended (`30_encoding.md` R62, R65). -/
theorem eight_le_nibbleArg {n : Nibble} (h : 0x8#4 ≤ n) : 0x08#8 ≤ nibbleArg n := by
  revert n; decide

@[simp] theorem nibbleArg_highNibble (h : Byte) : nibbleArg (highNibble h) = h >>> 4 := by
  revert h; decide

@[simp] theorem nibbleArg_lowNibble (h : Byte) : nibbleArg (lowNibble h) = h &&& 0x0F#8 := by
  revert h; decide

theorem highNibble_eq_nine_iff (h : Byte) : highNibble h = 0x9#4 ↔ h >>> 4 = 0x09#8 := by
  revert h; decide

/-- With the message `h`, `x`, `y` in the registers the events dispatched are those of the stream reading (R92). -/
theorem dispatched_eq_messageEvents {s : State} {h : Byte} (hstatus : s.status = highNibble h)
    (hchannel : s.channel = lowNibble h) : dispatched s = messageEvents h s.data0 s.data1 := by
  simp only [dispatched, messageEvents, hstatus, hchannel, highNibble_eq_nine_iff, nibbleArg_highNibble,
    nibbleArg_lowNibble]

/-! ### RX_DATA1 alone dispatches (R100) -/

/-- Of the operations that an element selects only RX_DATA1 adds to the log. -/
theorem eq_rxData1_or_effect_emitted {p : StatusMidmsg} {st : DecoderState} {c : Slot} {i : Instr}
    (h : selectedIn p st c i = true) (s : State) : (∃ b, i = .rxData1 b) ∨ (effect i s).emitted = s.emitted := by
  cases i with
  | rxData1 b => exact .inl ⟨b, rfl⟩
  | handleMessage => cases h
  | noteOn => cases h
  | report => cases h
  | _ => exact .inr rfl

/-! ### A message byte by byte (R82, R84, R85) -/

theorem taken_byte_of_idle_of_status {s : State} {b : Byte} (hidle : s.state = .idle) (hclass : classOf b = .status)
    (p : StatusMidmsg) : taken p (.byte b) s =
      { s with status := highNibble b, channel := lowNibble b, state := .receivingData } := by
  rw [taken, hidle, decode_idle_of_status hclass]
  rfl

theorem taken_byte_of_receivingData_zero {s : State} (hreceiving : s.state = .receivingData) (hcursor : s.cursor = 0#1)
    (b : Byte) : taken .absorb (.byte b) s = { s with data0 := b, cursor := 1#1 } := by
  have hdecode : decode .absorb s.state s.cursor (.byte b) = .rxData0 b := by
    rw [hreceiving, hcursor]
    rfl
  rw [taken, hdecode]
  rfl

theorem taken_byte_of_receivingData_one {s : State} (hreceiving : s.state = .receivingData) (hcursor : s.cursor = 1#1)
    (b : Byte) : taken .absorb (.byte b) s = { s with
      data1 := b, cursor := 0#1, state := .idle, emitted := s.emitted ++ dispatched { s with data1 := b } } := by
  rw [taken, hreceiving, hcursor]
  change setState .idle (setCursor 0#1 (dispatchMessage { s with data1 := b })) = _
  rw [dispatchMessage_eq]
  rfl

section message
variable {s : State} {h : Byte} (hidle : s.state = .idle) (hcursor : s.cursor = 0#1) (hclass : classOf h = .status)
include hidle hcursor hclass

/-- Two bytes of a message are latched and stored, without an event. -/
theorem foldl_taken_two_bytes (x : Byte) : (bytes [h, x]).foldl (fun t e => taken .absorb e t) s = { s with
    status := highNibble h, channel := lowNibble h, data0 := x, state := .receivingData, cursor := 1#1 } := by
  change taken .absorb (.byte x) (taken .absorb (.byte h) s) = _
  rw [taken_byte_of_idle_of_status hidle hclass]
  refine taken_byte_of_receivingData_zero ?_ ?_ x
  · rfl
  · exact hcursor

/-- The third byte completes the message: its events are emitted, and the decoder is in (`Idle`, 0) as before. -/
theorem foldl_taken_message (x y : Byte) : (bytes [h, x, y]).foldl (fun t e => taken .absorb e t) s = { s with
    status := highNibble h, channel := lowNibble h, data0 := x, data1 := y
    emitted := s.emitted ++ messageEvents h x y } := by
  change taken .absorb (.byte y) ((bytes [h, x]).foldl (fun t e => taken .absorb e t) s) = _
  rw [foldl_taken_two_bytes hidle hcursor hclass, taken_byte_of_receivingData_one rfl rfl,
    dispatched_eq_messageEvents rfl rfl, hidle, hcursor]

end message

/-! ### The obligations -/

/-- Settles O7: the channel argument is a zero-extended nibble, and NOTE_ON is its action's specification. -/
theorem noteOnFiresForNibbleNine : Obligations.NoteOnFiresForNibbleNine := fun s =>
  ⟨nibbleArg_le s.channel, by rw [exec_eq_effect, effect, noteOnAction_eq]; rfl⟩

/-- Settles O8: both nibble arguments are zero-extended, and REPORT is its action's specification, with no condition on
the nibble. -/
theorem reportFiresForEveryNibble : Obligations.ReportFiresForEveryNibble := fun s =>
  ⟨nibbleArg_le s.channel, fun h => ⟨eight_le_nibbleArg h, nibbleArg_le s.status⟩, by
    rw [exec_eq_effect, effect, reportAction_eq]; rfl⟩

/-- Settles O9: HANDLE_MESSAGE appends the events dispatched; no row of the tables selects it or its actions; RX_DATA1
runs it on the state with slot 1 written, and every other selected operation leaves the log. -/
theorem handleMessageDispatches : Obligations.HandleMessageDispatches := by
  refine ⟨fun s => ?_, fun p st c x => ?_, fun b s => ⟨dispatchMessage { s with data1 := b }, rfl, rfl⟩,
    fun p st c x s t hexec => ?_⟩
  · rw [exec_eq_effect, effect, dispatchMessage_eq, dispatched]
    split <;> rfl
  · exact ⟨decode_ne_of_not_selectedIn rfl x, decode_ne_of_not_selectedIn rfl x, decode_ne_of_not_selectedIn rfl x⟩
  · rw [exec_eq_effect] at hexec
    cases hexec
    exact eq_rxData1_or_effect_emitted (selectedIn_decode p st c x) s

/-- Settles O32: the message leaves (`Idle`, 0) as it found it, so the second one is received like the first. -/
theorem repeatedMessageIsReportedTwice : Obligations.RepeatedMessageIsReportedTwice := by
  intro h x y s hidle hcursor hbit
  have hclass : classOf h = .status := (classOf_eq_status_iff h).2 hbit
  have hsplit : bytes [h, x, y, h, x, y] = bytes [h, x, y] ++ bytes [h, x, y] := rfl
  refine ⟨⟨_, feed_eq_foldl _ s, ?_⟩, ⟨_, feed_eq_foldl _ s, ?_⟩, _, feed_eq_foldl _ s, ?_⟩
  · rw [foldl_taken_two_bytes hidle hcursor hclass, withPending_emitted]
  · rw [foldl_taken_message hidle hcursor hclass, withPending_emitted]
  · rw [hsplit, List.foldl_append, foldl_taken_message hidle hcursor hclass, foldl_taken_message ?_ ?_ hclass]
    · exact ⟨rfl, hidle, hcursor⟩
    · exact hidle
    · exact hcursor

end Machine

end Sys2Proof
end

section
/-! SUPPORT. The variant `restart` (`42_variant_restart.md` R116, R117): the row that it adds and what RX_STATUS_RESTART
does. The obligation of this part follows from them. -/

namespace Sys2Proof

/-- R117: under `restart` a byte of class `Status` in `ReceivingData` restarts the message, at either cursor value. -/
theorem decode_restart_receivingData_of_status {b : Byte} (h : classOf b = .status) (c : Slot) :
    decode .restart .receivingData c (.byte b) = .rxStatusRestart (highNibble b) (lowNibble b) := by
  rw [decode, decodeByte, decodeReceiving, h]

theorem selectedIn_absorb_rxStatusRestart (st : DecoderState) (c : Slot) (n k : Nibble) :
    selectedIn .absorb st c (.rxStatusRestart n k) = false :=
  Bool.and_false _

namespace Machine

theorem exec_rxStatusRestart (n c : Nibble) (s : State) :
    exec (.rxStatusRestart n c) s = .next { s with status := n, channel := c, cursor := 0#1 } := rfl

/-- Settles O6: under `absorb` no row selects RX_STATUS_RESTART; under `restart` bit 7 set is class `Status`, which
selects it in `ReceivingData` whatever the cursor. -/
theorem statusRestartAbandonsPartialMessage : Obligations.StatusRestartAbandonsPartialMessage := by
  refine ⟨fun st c x n k => decode_ne_of_not_selectedIn (selectedIn_absorb_rxStatusRestart st c n k) x,
    exec_rxStatusRestart, fun b rest s hreceiving hpending hbit => ?_⟩
  rw [stepUnder_of_pending_cons .restart hpending, hreceiving,
    decode_restart_receivingData_of_status ((classOf_eq_status_iff b).2 hbit)]
  exact exec_rxStatusRestart _ _ _

end Machine

end Sys2Proof
end

section
/-! SUPPORT. `70_reset_and_hazards.md`: what RESET leaves (R140), and that bytes with bit 7 clear are lost in `Idle`, one
by one and in any number (R148, R149). The obligations of this part follow from them. -/

namespace Sys2Proof.Machine

/-! ### RESET (R140) -/

theorem exec_reset (s : State) : exec .reset s = .next { s with
    state := .idle, cursor := 0#1
    status := Config.resetStatus s.freeCount, channel := Config.resetChannel s.freeCount
    data0 := Config.resetData0 s.freeCount, data1 := Config.resetData1 s.freeCount
    freeCount := s.freeCount + 1, resetSeen := true } := rfl

/-- RESET is selected from every sequencing state, under either policy (R34, R80). -/
theorem decode_reset (p : StatusMidmsg) (st : DecoderState) (c : Slot) : decode p st c .reset = .reset := rfl

/-! ### Data bytes in `Idle` (R83, R148) -/

theorem taken_byte_of_idle_of_data {s : State} {b : Byte} (hidle : s.state = .idle) (hclass : classOf b = .data)
    (p : StatusMidmsg) : taken p (.byte b) s = s := by
  rw [taken, hidle, decode_idle_of_data hclass]
  rfl

theorem foldl_taken_data_of_idle {s : State} (hidle : s.state = .idle) (p : StatusMidmsg) {ds : List Byte}
    (hclass : ∀ d ∈ ds, classOf d = .data) : (bytes ds).foldl (fun t e => taken p e t) s = s := by
  induction ds with
  | nil => rfl
  | cons d ds ih =>
    obtain ⟨hd, hds⟩ := List.forall_mem_cons.1 hclass
    change (bytes ds).foldl _ (taken p (.byte d) s) = s
    rw [taken_byte_of_idle_of_data hidle hd]
    exact ih hds

/-! ### The obligations -/

/-- Settles O11: every sequencing state selects RESET for a `Reset` element, and RESET writes `Idle` and cursor 0. -/
theorem resetForcesIdle : Obligations.ResetForcesIdle := by
  refine ⟨fun s => ⟨_, exec_reset s, rfl, rfl, rfl, rfl⟩, fun rest s hpending => ?_⟩
  rw [step_of_pending_cons hpending, decode_reset]
  exact ⟨_, exec_reset _, rfl, rfl, rfl, rfl⟩

/-- Settles O34: the data bytes fold to nothing in `Idle`, by induction on their list, so the status byte after them
meets the start state. -/
theorem dataBytesInIdleAreIgnored : Obligations.DataBytesInIdleAreIgnored := by
  intro ds s hidle hbits
  have hdropped := foldl_taken_data_of_idle hidle .absorb fun d hd => (classOf_eq_data_iff d).2 (hbits d hd)
  refine ⟨?_, fun b hbit => ?_⟩
  · rw [feed_eq_foldl, hdropped]
    rfl
  · have hsplit : bytes (ds ++ [b]) = bytes ds ++ [.byte b] := List.map_append
    rw [feed_eq_foldl, hsplit, List.foldl_append, hdropped, List.foldl_cons,
      taken_byte_of_idle_of_status hidle ((classOf_eq_status_iff b).2 hbit)]
    rfl

/-- Settles O33: the message ends in `Idle`, where the data bytes after it fold to nothing. -/
theorem runningStatusIsNotDecoded : Obligations.RunningStatusIsNotDecoded := by
  intro h x y ds s hidle hcursor hbit hbits
  have hclass : classOf h = .status := (classOf_eq_status_iff h).2 hbit
  have hsplit : bytes (h :: x :: y :: ds) = bytes [h, x, y] ++ bytes ds := rfl
  rw [feed_eq_foldl, feed_eq_foldl, hsplit, List.foldl_append, foldl_taken_data_of_idle]
  · rw [foldl_taken_message hidle hcursor hclass]
    exact hidle
  · exact fun d hd => (classOf_eq_data_iff d).2 (hbits d hd)

end Sys2Proof.Machine
end

section
/-! SUPPORT. What one input element can do (`40_process_byte.md` R80, `42_variant_restart.md` R116, R117), said once as a
relation with one case per row, and a run over an input sequence as a fold of its elements. The sections below cite these
and do not unfold the step. -/

namespace Sys2Proof

/-- A byte is stored in `ReceivingData` whatever its class under `absorb`, and if its class is `Data` under `restart`. -/
theorem decode_receivingData_of_stored {p : StatusMidmsg} {b : Byte} (h : p = .absorb ∨ classOf b = .data) (c : Slot) :
    decode p .receivingData c (.byte b) = decodeSlot c b := by
  cases p with
  | absorb => rfl
  | restart =>
    obtain hp | hclass := h
    · cases hp
    · rw [decode, decodeByte, decodeReceiving, hclass]

namespace Machine

/-! ### The cases of a step -/

/-- `Takes p s x t`: under the policy `p` the element `x` takes `s` to `t`. -/
inductive Takes (p : StatusMidmsg) (s : State) : Input → State → Prop
  /-- NONE (R86). -/
  | noByte : Takes p s .noByte s
  /-- RESET (R140). -/
  | reset : Takes p s .reset { s with
      state := .idle, cursor := 0#1
      status := Config.resetStatus s.freeCount, channel := Config.resetChannel s.freeCount
      data0 := Config.resetData0 s.freeCount, data1 := Config.resetData1 s.freeCount
      freeCount := s.freeCount + 1, resetSeen := true }
  /-- IDLE_STATUS (R82). -/
  | latched {b : Byte} (hidle : s.state = .idle) (hclass : classOf b = .status) :
      Takes p s (.byte b) { s with status := highNibble b, channel := lowNibble b, state := .receivingData }
  /-- IDLE_DATA (R83). -/
  | dropped {b : Byte} (hidle : s.state = .idle) (hclass : classOf b = .data) : Takes p s (.byte b) s
  /-- RX_DATA0 (R84). -/
  | stored {b : Byte} (hreceiving : s.state = .receivingData) (hcursor : s.cursor = 0#1)
      (hclass : p = .absorb ∨ classOf b = .data) : Takes p s (.byte b) { s with data0 := b, cursor := 1#1 }
  /-- RX_DATA1 (R85). -/
  | completed {b : Byte} (hreceiving : s.state = .receivingData) (hcursor : s.cursor = 1#1)
      (hclass : p = .absorb ∨ classOf b = .data) : Takes p s (.byte b) { s with
        data1 := b, cursor := 0#1, state := .idle, emitted := s.emitted ++ dispatched { s with data1 := b } }
  /-- RX_STATUS_RESTART (R116). -/
  | restarted {b : Byte} (hpolicy : p = .restart) (hreceiving : s.state = .receivingData) (hclass : classOf b = .status) :
      Takes p s (.byte b) { s with status := highNibble b, channel := lowNibble b, cursor := 0#1 }

theorem effect_rxData1 (b : Byte) (s : State) : effect (.rxData1 b) s = { s with
    data1 := b, cursor := 0#1, state := .idle, emitted := s.emitted ++ dispatched { s with data1 := b } } := by
  rw [effect, dispatchMessage_eq]
  rfl

theorem taken_of_stored {p : StatusMidmsg} {b : Byte} {s : State} (hreceiving : s.state = .receivingData)
    (hclass : p = .absorb ∨ classOf b = .data) : taken p (.byte b) s = effect (decodeSlot s.cursor b) s := by
  rw [taken, hreceiving, decode_receivingData_of_stored hclass]

theorem taken_of_restarted {b : Byte} {s : State} (hreceiving : s.state = .receivingData)
    (hclass : classOf b = .status) :
    taken .restart (.byte b) s = { s with status := highNibble b, channel := lowNibble b, cursor := 0#1 } := by
  have hdecode : decode .restart s.state s.cursor (.byte b) = .rxStatusRestart (highNibble b) (lowNibble b) := by
    rw [hreceiving, decode_restart_receivingData_of_status hclass]
  rw [taken, hdecode]
  rfl

/-- Every case is what the step does. -/
theorem Takes.eq {p : StatusMidmsg} {s t : State} {x : Input} (h : Takes p s x t) : t = taken p x s := by
  cases h with
  | noByte => rfl
  | reset => rfl
  | latched hidle hclass => exact (taken_byte_of_idle_of_status hidle hclass p).symm
  | dropped hidle hclass => exact (taken_byte_of_idle_of_data hidle hclass p).symm
  | stored hreceiving hcursor hclass =>
    rw [taken_of_stored hreceiving hclass, hcursor]
    rfl
  | completed hreceiving hcursor hclass =>
    rw [taken_of_stored hreceiving hclass, hcursor]
    exact (effect_rxData1 _ s).symm
  | restarted hpolicy hreceiving hclass =>
    rw [hpolicy, taken_of_restarted hreceiving hclass]

theorem exists_takes_of_stored {p : StatusMidmsg} {s : State} {b : Byte} (hreceiving : s.state = .receivingData)
    (hclass : p = .absorb ∨ classOf b = .data) : ∃ t, Takes p s (.byte b) t := by
  obtain hcursor | hcursor := BitVec.eq_zero_or_eq_one s.cursor
  · exact ⟨_, .stored hreceiving hcursor hclass⟩
  · exact ⟨_, .completed hreceiving hcursor hclass⟩

/-- Every element meets a case in every state (R87). -/
theorem exists_takes (p : StatusMidmsg) (s : State) (x : Input) : ∃ t, Takes p s x t := by
  cases x with
  | noByte => exact ⟨_, .noByte⟩
  | reset => exact ⟨_, .reset⟩
  | byte b =>
    cases hstate : s.state with
    | idle =>
      cases hclass : classOf b with
      | status => exact ⟨_, .latched hstate hclass⟩
      | data => exact ⟨_, .dropped hstate hclass⟩
    | receivingData =>
      cases hclass : classOf b with
      | data => exact exists_takes_of_stored hstate (.inr hclass)
      | status =>
        cases p with
        | absorb => exact exists_takes_of_stored hstate (.inl rfl)
        | restart => exact ⟨_, .restarted rfl hstate hclass⟩

/-- The state that an element leaves is the one that its case gives. -/
theorem takes_taken (p : StatusMidmsg) (s : State) (x : Input) : Takes p s x (taken p x s) := by
  obtain ⟨t, ht⟩ := exists_takes p s x
  exact ht.eq ▸ ht

/-- A step takes the next input element. -/
theorem stepped_eq_taken (p : StatusMidmsg) (s : State) : stepped p s = taken p (nextInput s) (consumeInput s) := rfl

theorem takes_of_stepUnder {p : StatusMidmsg} {s t : State} (h : stepUnder p s = .next t) :
    Takes p (consumeInput s) (nextInput s) t := by
  rw [stepUnder_eq_stepped] at h
  cases h
  exact takes_taken p _ _

theorem takes_of_step {s t : State} (h : step s = .next t) : Takes .absorb (consumeInput s) (nextInput s) t :=
  takes_of_stepUnder h

/-! ### Runs -/

/-- The state after the elements `xs`, with whatever input was waiting left waiting. -/
def fed (p : StatusMidmsg) (xs : List Input) (s : State) : State := xs.foldl (fun t x => taken p x t) s

@[simp] theorem fed_nil (p : StatusMidmsg) (s : State) : fed p [] s = s := rfl

@[simp] theorem fed_cons (p : StatusMidmsg) (x : Input) (xs : List Input) (s : State) :
    fed p (x :: xs) s = fed p xs (taken p x s) := rfl

@[simp] theorem fed_append (p : StatusMidmsg) (xs ys : List Input) (s : State) :
    fed p (xs ++ ys) s = fed p ys (fed p xs s) := List.foldl_append

theorem feedUnder_eq_fed (p : StatusMidmsg) (xs : List Input) (s : State) :
    feedUnder p xs s = .next ((fed p xs s).withPending []) := feedUnder_eq_foldl p xs s

theorem feed_eq_fed (xs : List Input) (s : State) : feed xs s = .next ((fed .absorb xs s).withPending []) :=
  feed_eq_foldl xs s

/-- What holds before, and is kept by every case of a step, holds after a run. -/
theorem fed_induction {P : State → Prop} {p : StatusMidmsg} (hstep : ∀ s x t, P s → Takes p s x t → P t)
    (xs : List Input) {s : State} (h : P s) : P (fed p xs s) := by
  induction xs generalizing s with
  | nil => exact h
  | cons x xs ih => exact ih (hstep s x _ h (takes_taken p s x))

end Machine
end Sys2Proof
end

section
/-! SUPPORT. The encoder against the decoder (`30_encoding.md` sections 1 to 3, `42_variant_restart.md` R117): the fields
of a byte of each format, and that the decoder reads back what the encoder writes wherever the operation is selected.
The obligations of this part follow from them. -/

namespace Sys2Proof

/-! ### The fields of an encoded byte (R62, R63) -/

theorem classOf_append_of_statusNibbleOk {n : Nibble} (h : statusNibbleOk n = true) (c : Nibble) :
    classOf (n ++ c) = .status := by
  rw [classOf_eq_status_iff, ← statusNibbleOk_highNibble, highNibble_append, h]

theorem classOf_zero_append (d : BitVec 7) : classOf (0#1 ++ d) = .data := by
  revert d; decide

theorem lowSeven_zero_append (d : BitVec 7) : lowSeven (0#1 ++ d) = d := by
  revert d; decide

theorem zero_append_lowSeven {b : Byte} (h : classOf b = .data) : (0#1 ++ lowSeven b : Byte) = b := by
  revert b; decide

/-! ### Encoding what was decoded -/

theorem encode_decodeIdle (b : Byte) : encode (decodeIdle b) = some (.byte b) := by
  unfold decodeIdle
  cases h : classOf b with
  | status => exact congrArg (some ∘ Input.byte) (highNibble_append_lowNibble b)
  | data => exact congrArg (some ∘ Input.byte) (zero_append_lowSeven h)

theorem encode_decodeSlot (c : Slot) (b : Byte) : encode (decodeSlot c b) = some (.byte b) := by
  obtain h | h := decodeSlot_eq_or c b <;> rw [h] <;> rfl

theorem encode_decodeReceiving (p : StatusMidmsg) (c : Slot) (b : Byte) :
    encode (decodeReceiving p c b) = some (.byte b) := by
  cases p with
  | absorb => exact encode_decodeSlot c b
  | restart =>
    unfold decodeReceiving
    cases classOf b with
    | status => exact congrArg (some ∘ Input.byte) (highNibble_append_lowNibble b)
    | data => exact encode_decodeSlot c b

/-- The operation that an element selects is encoded by that element. -/
theorem encode_decode (p : StatusMidmsg) (st : DecoderState) (c : Slot) (x : Input) :
    encode (decode p st c x) = some x := by
  cases x with
  | reset => rfl
  | noByte => rfl
  | byte b =>
    cases st with
    | idle => exact encode_decodeIdle b
    | receivingData => exact encode_decodeReceiving p c b

/-! ### Decoding what was encoded -/

section selected
variable {p : StatusMidmsg} {st : DecoderState} {c : Slot}

theorem decode_of_selectedIn_rxData0 {b : Byte} (h : selectedIn p st c (.rxData0 b) = true) :
    decode p st c (.byte b) = .rxData0 b := by
  simp only [selectedIn, Bool.and_eq_true, Bool.or_eq_true, beq_iff_eq] at h
  obtain ⟨⟨rfl, rfl⟩, hclass⟩ := h
  exact decode_receivingData_of_stored hclass 0#1

theorem decode_of_selectedIn_rxData1 {b : Byte} (h : selectedIn p st c (.rxData1 b) = true) :
    decode p st c (.byte b) = .rxData1 b := by
  simp only [selectedIn, Bool.and_eq_true, Bool.or_eq_true, beq_iff_eq] at h
  obtain ⟨⟨rfl, rfl⟩, hclass⟩ := h
  exact decode_receivingData_of_stored hclass 1#1

/-- Where a well-formed operation is selected, the element that encodes it decodes to it. -/
theorem decode_of_encode {i : Instr} {x : Input} (hwf : i.wellFormed = true) (hencode : encode i = some x)
    (hselected : selectedIn p st c i = true) : decode p st c x = i := by
  cases i with
  | idleStatus n k =>
    cases hencode
    obtain rfl : st = .idle := beq_iff_eq.1 hselected
    rw [decode_idle_of_status (classOf_append_of_statusNibbleOk hwf k), highNibble_append, lowNibble_append]
  | idleData d =>
    cases hencode
    obtain rfl : st = .idle := beq_iff_eq.1 hselected
    rw [decode_idle_of_data (classOf_zero_append d), lowSeven_zero_append]
  | rxData0 b =>
    cases hencode
    exact decode_of_selectedIn_rxData0 hselected
  | rxData1 b =>
    cases hencode
    exact decode_of_selectedIn_rxData1 hselected
  | noByte =>
    cases hencode
    rfl
  | reset =>
    cases hencode
    rfl
  | rxStatusRestart n k =>
    cases hencode
    simp only [selectedIn, Bool.and_eq_true, beq_iff_eq] at hselected
    obtain ⟨rfl, rfl⟩ := hselected
    rw [decode_restart_receivingData_of_status (classOf_append_of_statusNibbleOk hwf k), highNibble_append,
      lowNibble_append]
  | classify b => cases hencode
  | handleMessage => cases hencode
  | noteOn => cases hencode
  | report => cases hencode

end selected

/-! ### The obligations -/

/-- Settles O16: a decoded operation is well formed, is encoded by its element and meets its row's condition; and an
operation with these three properties is read back from its element, row by row. -/
theorem decodeInvertsEncode : Obligations.DecodeInvertsEncode := by
  intro p st c x i
  constructor
  · rintro rfl
    exact ⟨decode_wellFormed p st c x, encode_decode p st c x, selectedIn_decode p st c x⟩
  · rintro ⟨hwf, hencode, hselected⟩
    exact decode_of_encode hwf hencode hselected

/-- Settles O14: six closed instances of the decoder. -/
theorem wordsDecodeAsTheirFormats : Obligations.WordsDecodeAsTheirFormats := by
  unfold Obligations.WordsDecodeAsTheirFormats
  decide

namespace Machine

/-- A placed table word is the next element, in the sequencing state that the table is decoded in (log entry 10). -/
theorem withFetchWord_of_tableByte {nbits w : Nat} {b : Byte} (h : tableByte nbits w = some b) (s : State) :
    s.withFetchWord nbits w =
      { s with state := .idle, cursor := 0#1, pending := .byte b :: s.pending } := by
  rw [State.withFetchWord, placeTableWord, h]
  rfl

/-- Settles O13: the placed byte is the next element in (`Idle`, 0), so the step runs what the table decoder reads. -/
theorem tableWordRunsAsDecoded : Obligations.TableWordRunsAsDecoded := by
  intro nbits w i s hdecode
  obtain ⟨b, hbyte, rfl⟩ := Option.map_eq_some_iff.1 hdecode
  rw [withFetchWord_of_tableByte hbyte]
  exact step_of_pending_cons rfl

end Machine
end Sys2Proof
end

section
/-! SUPPORT. The invariants (`10_state.md` section 2, `42_variant_restart.md` R118): each is kept by every case of a step,
so every step keeps it, and so it holds of every reachable state. The obligations of this part follow from them. -/

namespace Sys2Proof

/-- A byte of class `Status` has a high nibble of 0x8 to 0xF (`30_encoding.md` R62). -/
theorem eight_le_highNibble {b : Byte} (h : classOf b = .status) : 0x8#4 ≤ highNibble b := by
  revert b; decide

theorem le_of_classOf_eq_data {b : Byte} (h : classOf b = .data) : b ≤ 0x7F#8 := by
  revert b; decide

namespace Machine

/-! ### INV1 (R26) -/

theorem Takes.inv1 {p : StatusMidmsg} {s t : State} {x : Input} (h : Takes p s x t) (hs : s.Inv1) : t.Inv1 := by
  cases h with
  | noByte => exact hs
  | reset => exact fun _ => rfl
  | latched => exact nofun
  | dropped => exact hs
  | stored hreceiving => exact fun hidle => nomatch hreceiving.symm.trans hidle
  | completed => exact fun _ => rfl
  | restarted => exact fun _ => rfl

/-! ### The event log -/

/-- Good logs one after the other are a good log: no `NoteOn` at the end of the first waits for its `Report`. -/
theorem logOk_append {es fs : List Event} (hes : logOk es = true) (hfs : logOk fs = true) : logOk (es ++ fs) = true := by
  induction es using logOk.induct with
  | case1 => exact hfs
  | case2 n c x y es ih =>
    simp only [logOk, List.cons_append, Bool.and_eq_true] at hes ⊢
    exact ⟨hes.1, ih hes.2⟩
  | case3 c x y n c' x' y' es ih =>
    simp only [logOk, List.cons_append, Bool.and_eq_true] at hes ⊢
    exact ⟨hes.1, ih hes.2⟩
  | case4 => simp [logOk] at hes
  | case5 => simp [logOk] at hes

/-- The events of one message are a good log if its status nibble is 0x8 to 0xF. -/
theorem logOk_dispatched {s : State} (h : 0x8#4 ≤ s.status) : logOk (dispatched s) = true := by
  have hchannel := nibbleArg_le s.channel
  by_cases hnine : s.status = 0x9#4
  · have hnibble : nibbleArg 0x9#4 = 0x09#8 := rfl
    simp [dispatched, hnine, hnibble, logOk, hchannel]
  · simp [dispatched, hnine, logOk, hchannel, eight_le_nibbleArg h, nibbleArg_le]

theorem all_dataInRange_dispatched {s : State} (h0 : s.data0 ≤ 0x7F#8) (h1 : s.data1 ≤ 0x7F#8) :
    (dispatched s).all Event.dataInRange = true := by
  by_cases hnine : s.status = 0x9#4 <;> simp [dispatched, hnine, Event.dataInRange, h0, h1]

/-! ### The invariant of this hardware -/

theorem Takes.inv {p : StatusMidmsg} {s t : State} {x : Input} (h : Takes p s x t) (hs : s.Inv) : t.Inv := by
  obtain ⟨hinv1, hstatus, hlog⟩ := hs
  refine ⟨h.inv1 hinv1, ?_⟩
  cases h with
  | noByte => exact ⟨hstatus, hlog⟩
  | reset => exact ⟨nofun, hlog⟩
  | latched _ hclass => exact ⟨fun _ => eight_le_highNibble hclass, hlog⟩
  | dropped => exact ⟨hstatus, hlog⟩
  | stored => exact ⟨hstatus, hlog⟩
  | completed hreceiving => exact ⟨nofun, logOk_append hlog (logOk_dispatched (hstatus hreceiving))⟩
  | restarted _ _ hclass => exact ⟨fun _ => eight_le_highNibble hclass, hlog⟩

/-! ### The invariant of the variant `restart` -/

theorem Takes.restartInv {s t : State} {x : Input} (h : Takes .restart s x t) (hs : s.RestartInv) : t.RestartInv := by
  obtain ⟨hinv1, hdata0, hlog⟩ := hs
  refine ⟨h.inv1 hinv1, ?_⟩
  cases h with
  | noByte => exact ⟨hdata0, hlog⟩
  | reset => exact ⟨nofun, hlog⟩
  | latched hidle => exact ⟨fun _ hone => (nomatch (hinv1 hidle).symm.trans hone), hlog⟩
  | dropped => exact ⟨hdata0, hlog⟩
  | stored _ _ hclass => exact ⟨fun _ _ => le_of_classOf_eq_data (hclass.resolve_left nofun), hlog⟩
  | @completed b hreceiving hcursor hclass =>
    have hb : b ≤ 0x7F#8 := le_of_classOf_eq_data (hclass.resolve_left nofun)
    have hevents := all_dataInRange_dispatched (s := { s with data1 := b }) (hdata0 hreceiving hcursor) hb
    exact ⟨nofun, List.all_append.trans (Bool.and_eq_true_iff.2 ⟨hlog, hevents⟩)⟩
  | restarted => exact ⟨nofun, hlog⟩

/-! ### Reached sequencing states (R39) -/

theorem exists_reachable_receivingData_zero : ∃ s, Reachable s ∧ s.state = .receivingData ∧ s.cursor = 0#1 :=
  ⟨_, .afterStep (.presented [.byte 0x90#8] .reset) rfl, rfl, rfl⟩

theorem exists_reachable_receivingData_one : ∃ s, Reachable s ∧ s.state = .receivingData ∧ s.cursor = 1#1 :=
  ⟨_, .afterStep (.afterStep (.presented [.byte 0x90#8, .byte 0x3C#8] .reset) rfl) rfl, rfl, rfl⟩

/-! ### The obligations -/

/-- Settles O24: every case of a step keeps the three parts; the one that adds events adds those of a message whose
status nibble the invariant bounds. -/
theorem stepsKeepMessageInvariant : Obligations.StepsKeepMessageInvariant :=
  fun _ _ hs hstep => (takes_of_step hstep).inv hs

/-- Settles O27: under `restart` a byte is stored only if its class is `Data`, so both slots are in range when a message
completes. -/
theorem restartStepsKeepDataRange : Obligations.RestartStepsKeepDataRange :=
  fun _ _ hs hstep => (takes_of_stepUnder hstep).restartInv hs

/-- Settles O23: (`Idle`, 0) after reset, every case of a step, and the cursor's width. -/
theorem stepsKeepCursorInvariants : Obligations.StepsKeepCursorInvariants :=
  ⟨fun _ => rfl, fun _ _ _ hs hstep => (takes_of_stepUnder hstep).inv1 hs,
    fun s _ => BitVec.eq_zero_or_eq_one s.cursor⟩

/-- Settles O22: in `Idle` at cursor 0 with an empty log no part of either invariant speaks of the payload registers. -/
theorem resetStateSatisfiesInvariants : Obligations.ResetStateSatisfiesInvariants :=
  ⟨rfl, rfl, fun _ _ _ _ => ⟨⟨fun _ => rfl, nofun, rfl⟩, fun _ => rfl, nofun, rfl⟩⟩

/-- Settles O25: the reset state satisfies the invariant, presenting input touches none of its parts, and steps keep it. -/
theorem reachableStatesSatisfyMessageInvariant : Obligations.ReachableStatesSatisfyMessageInvariant :=
  fun _ hreachable => hreachable.induct ⟨fun _ => rfl, nofun, rfl⟩ (fun _ _ hs => hs)
    fun s hs => (takes_of_step (step_eq_stepped s)).inv hs

/-- Settles O26: INV1 excludes (`Idle`, 1), and the first two bytes of a message reach the other pairs. -/
theorem reachedSequencingStatesAreThree : Obligations.ReachedSequencingStatesAreThree := by
  intro st c
  constructor
  · rintro ⟨s, hreachable, rfl, rfl⟩
    exact (reachableStatesSatisfyMessageInvariant s hreachable).1
  · intro hinv1
    cases st with
    | idle => exact ⟨State.reset, .reset, rfl, (hinv1 rfl).symm⟩
    | receivingData =>
      obtain rfl | rfl := BitVec.eq_zero_or_eq_one c
      · exact exists_reachable_receivingData_zero
      · exact exists_reachable_receivingData_one

end Machine
end Sys2Proof
end

section
/-! SUPPORT. Frames of a whole step: what it does to the input, the nibbles, the slots, the log and the sequencing state
(`10_state.md` section 1, `20_memory.md` section 1, `40_process_byte.md` section 5). The obligations of this part follow
from them. -/

namespace Sys2Proof.Machine

/-! ### The element of a step (R34; log entry 2) -/

/-- An element other than `None` was waiting. -/
theorem pending_of_nextInput {s : State} {x : Input} (h : nextInput s = x) (hx : x ≠ .noByte) :
    s.pending = x :: s.pending.tail := by
  cases hpending : s.pending with
  | nil => exact absurd (h.symm.trans (by rw [nextInput, hpending])) hx
  | cons y rest => rw [← h, nextInput_of_pending_cons hpending, List.tail_cons]

theorem step_of_pending_nil {s : State} (h : s.pending = []) : step s = .next s := by
  have hself : s.withPending [] = s := by rw [← h, withPending_self]
  rw [← hself]
  exact step_eq_stepped _

theorem takes_of_step_of_pending_cons {s t : State} {x : Input} {rest : List Input} (h : s.pending = x :: rest)
    (hstep : step s = .next t) : Takes .absorb { s with pending := rest } x t := by
  have htakes := takes_of_step hstep
  rwa [nextInput_of_pending_cons h, consumeInput_of_pending_cons h] at htakes

theorem eq_of_step_of_pending_nil {s t : State} (h : s.pending = []) (hstep : step s = .next t) : t = s := by
  rw [step_of_pending_nil h] at hstep
  cases hstep
  rfl

/-- No operation changes what is still to come. -/
theorem Takes.pending {p : StatusMidmsg} {s t : State} {x : Input} (h : Takes p s x t) : t.pending = s.pending := by
  cases h <;> rfl

/-! ### The slots (R25, R41) -/

/-- A byte in `ReceivingData` is written to the slot that the cursor addresses. -/
theorem Takes.slotRead_of_receivingData {s t : State} {b : Byte} (h : Takes .absorb s (.byte b) t)
    (hreceiving : s.state = .receivingData) (a : Slot) : slotRead t a = if a = s.cursor then b else slotRead s a := by
  cases h with
  | latched hidle => exact nomatch hidle.symm.trans hreceiving
  | dropped hidle => exact nomatch hidle.symm.trans hreceiving
  | stored _ hcursor => rw [hcursor]; exact slotRead_slotWrite s 0#1 a b
  | completed _ hcursor => rw [hcursor]; exact slotRead_slotWrite s 1#1 a b
  | restarted hpolicy => cases hpolicy

theorem Takes.slotRead_of_ne_receivingData {p : StatusMidmsg} {s t : State} {b : Byte} (h : Takes p s (.byte b) t)
    (hnot : s.state ≠ .receivingData) (a : Slot) : slotRead t a = slotRead s a := by
  cases h with
  | latched => rfl
  | dropped => rfl
  | stored hreceiving => exact absurd hreceiving hnot
  | completed hreceiving => exact absurd hreceiving hnot
  | restarted _ hreceiving => exact absurd hreceiving hnot

/-! ### The events (R108) -/

/-- What an element adds to the log: the events of the message that it completes, if it completes one. -/
def stepEvents (x : Input) (s : State) : List Event :=
  match x with
  | .byte b => if s.state = .receivingData ∧ s.cursor = 1#1 then dispatched { s with data1 := b } else []
  | .reset => []
  | .noByte => []

theorem stepEvents_byte (b : Byte) (s : State) : stepEvents (.byte b) s =
    if s.state = .receivingData ∧ s.cursor = 1#1 then dispatched { s with data1 := b } else [] := rfl

theorem Takes.emitted_eq {s t : State} {x : Input} (h : Takes .absorb s x t) :
    t.emitted = s.emitted ++ stepEvents x s := by
  cases h with
  | noByte => exact (List.append_nil _).symm
  | reset => exact (List.append_nil _).symm
  | latched hidle => simp [stepEvents_byte, hidle]
  | dropped hidle => simp [stepEvents_byte, hidle]
  | stored _ hcursor => simp [stepEvents_byte, hcursor]
  | completed hreceiving hcursor => rw [stepEvents_byte, if_pos ⟨hreceiving, hcursor⟩]
  | restarted hpolicy => cases hpolicy

theorem length_dispatched (s : State) : (dispatched s).length = if s.status = 0x9#4 then 2 else 1 := by
  unfold dispatched
  split <;> rfl

/-! ### The sequencing state (R89) -/

theorem Takes.sequencing_byte_of_idle {s t : State} {b : Byte} (h : Takes .absorb s (.byte b) t) (hinv1 : s.Inv1)
    (hidle : s.state = .idle) : t.state = (if b.getLsbD 7 = true then .receivingData else .idle) ∧ t.cursor = 0#1 := by
  cases h with
  | latched _ hclass => exact ⟨(if_pos ((classOf_eq_status_iff b).1 hclass)).symm, hinv1 hidle⟩
  | dropped _ hclass =>
    rw [(classOf_eq_data_iff b).1 hclass]
    exact ⟨hidle, hinv1 hidle⟩
  | stored hreceiving => exact nomatch hidle.symm.trans hreceiving
  | completed hreceiving => exact nomatch hidle.symm.trans hreceiving
  | restarted hpolicy => cases hpolicy

theorem Takes.sequencing_byte_of_receivingData {s t : State} {b : Byte} (h : Takes .absorb s (.byte b) t)
    (hreceiving : s.state = .receivingData) :
    if s.cursor = 0#1 then t.state = .receivingData ∧ t.cursor = 1#1 else t.state = .idle ∧ t.cursor = 0#1 := by
  cases h with
  | latched hidle => exact nomatch hidle.symm.trans hreceiving
  | dropped hidle => exact nomatch hidle.symm.trans hreceiving
  | stored _ hcursor => rw [if_pos hcursor]; exact ⟨hreceiving, rfl⟩
  | completed _ hcursor => rw [hcursor, if_neg (by decide)]; exact ⟨rfl, rfl⟩
  | restarted hpolicy => cases hpolicy

/-! ### The obligations -/

/-- Settles O10: NONE is the identity, on a `None` element and with nothing waiting. -/
theorem noByteHoldsState : Obligations.NoByteHoldsState :=
  ⟨exec_eq_effect .noByte, fun _ _ hpending => step_of_pending_cons hpending, fun _ => step_of_pending_nil⟩

/-- Settles O17: of the cases of a step only RESET and IDLE_STATUS name the nibbles. -/
theorem nibblesWrittenOnlyByIdleStatus : Obligations.NibblesWrittenOnlyByIdleStatus := by
  intro s t hstep
  have htakes := takes_of_step hstep
  generalize hx : nextInput s = x at htakes
  cases htakes with
  | noByte => exact .inl ⟨rfl, rfl⟩
  | reset => exact .inr (.inl ⟨_, pending_of_nextInput hx nofun⟩)
  | @latched b hidle hclass =>
    exact .inr (.inr ⟨b, _, pending_of_nextInput hx nofun, hidle, (classOf_eq_status_iff b).1 hclass, rfl, rfl⟩)
  | dropped => exact .inl ⟨rfl, rfl⟩
  | stored => exact .inl ⟨rfl, rfl⟩
  | completed => exact .inl ⟨rfl, rfl⟩
  | restarted hpolicy => cases hpolicy

/-- Settles O18: a byte in `ReceivingData` is a slot write at the cursor, and no other case but RESET writes a slot. -/
theorem slotsWrittenOnlyAtCursor : Obligations.SlotsWrittenOnlyAtCursor := by
  intro s t hstep
  cases hpending : s.pending with
  | nil =>
    obtain rfl := eq_of_step_of_pending_nil hpending hstep
    exact fun _ => rfl
  | cons x rest =>
    have htakes := takes_of_step_of_pending_cons hpending hstep
    cases x with
    | reset => trivial
    | noByte =>
      cases htakes
      exact fun _ => rfl
    | byte b =>
      show if s.state = .receivingData then _ else _
      split
      · next hreceiving =>
        have hread := htakes.slotRead_of_receivingData hreceiving
        exact ⟨(hread s.cursor).trans (if_pos rfl), fun a ha => (hread a).trans (if_neg ha)⟩
      · next hnot => exact htakes.slotRead_of_ne_receivingData hnot

/-- Settles O19: the events of a step are those of the message it completes, of which there are one or two. -/
theorem eventsOnlyWhenMessageCompletes : Obligations.EventsOnlyWhenMessageCompletes := by
  intro s t hstep
  refine ⟨stepEvents (nextInput s) s, (takes_of_step hstep).emitted_eq, ?_, fun hnot => ?_⟩
  · rintro ⟨hreceiving, hcursor, b, rest, hpending⟩
    rw [nextInput_of_pending_cons hpending, stepEvents_byte, if_pos ⟨hreceiving, hcursor⟩, length_dispatched]
  · cases hx : nextInput s with
    | reset => rfl
    | noByte => rfl
    | byte b =>
      have hpending := pending_of_nextInput hx nofun
      exact if_neg fun ⟨hreceiving, hcursor⟩ => hnot ⟨hreceiving, hcursor, b, _, hpending⟩

/-- Settles O20: row by row of R89, the element first, then the sequencing state. -/
theorem sequencingFollowsControlTable : Obligations.SequencingFollowsControlTable := by
  intro s t hinv1 hstep
  cases hpending : s.pending with
  | nil =>
    obtain rfl := eq_of_step_of_pending_nil hpending hstep
    exact ⟨rfl, rfl⟩
  | cons x rest =>
    have htakes := takes_of_step_of_pending_cons hpending hstep
    cases x with
    | reset =>
      cases htakes
      exact ⟨rfl, rfl⟩
    | noByte =>
      cases htakes
      exact ⟨rfl, rfl⟩
    | byte b =>
      cases hstate : s.state with
      | idle => exact htakes.sequencing_byte_of_idle hinv1 hstate
      | receivingData => exact htakes.sequencing_byte_of_receivingData hstate

end Sys2Proof.Machine
end

section
/-! SUPPORT. Runs over an input sequence as folds (`20_memory.md` R48, `40_process_byte.md` R86 to R92): what may be dropped
from the input, in what order it acts, and what a run from (`Idle`, 0) emits. The obligations of this part follow from
them. -/

namespace Sys2Proof.Machine

/-! ### Any input -/

/-- A run neither looks at nor changes the input beyond its own. -/
theorem fed_withPending (p : StatusMidmsg) (xs ys : List Input) (s : State) :
    fed p xs (s.withPending ys) = (fed p xs s).withPending ys := by
  induction xs generalizing s with
  | nil => rfl
  | cons x xs ih => rw [fed_cons, taken_withPending, ih, fed_cons]

theorem fed_filter_noByte (p : StatusMidmsg) (xs : List Input) (s : State) :
    fed p (xs.filter fun x => x != .noByte) s = fed p xs s := by
  induction xs generalizing s with
  | nil => rfl
  | cons x xs ih =>
    cases x with
    | noByte => exact ih s
    | reset => exact ih _
    | byte b => exact ih _

@[simp] theorem fed_replicate_noByte (p : StatusMidmsg) (k : Nat) (s : State) :
    fed p (List.replicate k .noByte) s = s := by
  induction k with
  | zero => rfl
  | succ k ih => exact ih

theorem emitted_isPrefix_fed (xs : List Input) (s : State) : s.emitted <+: (fed .absorb xs s).emitted :=
  fed_induction (P := fun t => s.emitted <+: t.emitted)
    (fun _ _ _ hlog htakes => htakes.emitted_eq ▸ hlog.trans (List.prefix_append _ _)) xs List.prefix_rfl

theorem stepped_pending (p : StatusMidmsg) (s : State) : (stepped p s).pending = s.pending.tail :=
  (takes_of_stepUnder (stepUnder_eq_stepped p s)).pending

theorem iterate_stepped_pending (p : StatusMidmsg) (n : Nat) (s : State) :
    ((stepped p)^[n] s).pending = s.pending.drop n := by
  induction n generalizing s with
  | zero => rfl
  | succ n ih => rw [Function.iterate_succ_apply, ih, stepped_pending, List.drop_tail]

/-! ### Byte streams -/

theorem bytes_append (bs cs : List Byte) : bytes (bs ++ cs) = bytes bs ++ bytes cs := List.map_append

theorem fed_data_of_idle {s : State} (hidle : s.state = .idle) (p : StatusMidmsg) {ds : List Byte}
    (hclass : ∀ d ∈ ds, classOf d = .data) : fed p (bytes ds) s = s := foldl_taken_data_of_idle hidle p hclass

/-- From (`ReceivingData`, 0) two bytes complete the message (R84, R85). -/
theorem taken_two_bytes_of_receivingData {s : State} (hreceiving : s.state = .receivingData) (hcursor : s.cursor = 0#1)
    (x y : Byte) : taken .absorb (.byte y) (taken .absorb (.byte x) s) = { s with
      data0 := x, data1 := y, state := .idle
      emitted := s.emitted ++ dispatched { s with data0 := x, data1 := y } } := by
  rw [taken_byte_of_receivingData_zero hreceiving hcursor, taken_byte_of_receivingData_one]
  · rw [hcursor]
    rfl
  · exact hreceiving
  · rfl

/-- The bytes whose high nibble is 0x9 are 0x90 to 0x9F (R104). -/
theorem shiftRight_eq_nine_iff (h : Byte) : h >>> 4 = 0x09#8 ↔ 0x90#8 ≤ h ∧ h ≤ 0x9F#8 := by
  revert h; decide

section message
variable {s : State} {h : Byte} (hidle : s.state = .idle) (hcursor : s.cursor = 0#1) (hclass : classOf h = .status)
include hidle hcursor hclass

theorem fed_message (x y : Byte) : fed .absorb (bytes [h, x, y]) s = { s with
    status := highNibble h, channel := lowNibble h, data0 := x, data1 := y
    emitted := s.emitted ++ messageEvents h x y } := foldl_taken_message hidle hcursor hclass x y

theorem fed_message_emitted (x y : Byte) :
    (fed .absorb (bytes [h, x, y]) s).emitted = s.emitted ++ messageEvents h x y := by
  rw [fed_message hidle hcursor hclass]

theorem fed_message_state (x y : Byte) : (fed .absorb (bytes [h, x, y]) s).state = .idle := by
  rw [fed_message hidle hcursor hclass, hidle]

theorem fed_message_cursor (x y : Byte) : (fed .absorb (bytes [h, x, y]) s).cursor = 0#1 := by
  rw [fed_message hidle hcursor hclass, hcursor]

end message

theorem classOf_of_not_lt {b : Byte} (h : ¬ b < 0x80#8) : classOf b = .status :=
  (classOf_eq_status_iff_le b).2 (BitVec.not_lt.1 h)

section parse
variable {h : Byte}

theorem parse_cons_of_lt (hlt : h < 0x80#8) (rest : List Byte) : parse (h :: rest) = parse rest := by
  rw [parse.eq_def]; exact if_pos hlt

theorem parse_status (hlt : ¬ h < 0x80#8) : parse [h] = ⟨[], .receivingData, 0#1⟩ := by
  rw [parse.eq_def]; exact if_neg hlt

theorem parse_status_byte (hlt : ¬ h < 0x80#8) (x : Byte) : parse [h, x] = ⟨[], .receivingData, 1#1⟩ := by
  rw [parse.eq_def]; exact if_neg hlt

theorem parse_message (hlt : ¬ h < 0x80#8) (x y : Byte) (tail : List Byte) :
    parse (h :: x :: y :: tail) = (parse tail).after (messageEvents h x y) := by
  rw [parse.eq_def]; exact if_neg hlt

end parse

/-- A byte stream read from (`Idle`, 0) emits what `parse` finds and stops where `parse` stops (R92). -/
theorem fed_bytes_parse (bs : List Byte) {s : State} (hidle : s.state = .idle) (hcursor : s.cursor = 0#1) :
    (fed .absorb (bytes bs) s).emitted = s.emitted ++ (parse bs).events ∧
    (fed .absorb (bytes bs) s).state = (parse bs).state ∧ (fed .absorb (bytes bs) s).cursor = (parse bs).cursor := by
  induction bs using parse.induct generalizing s with
  | case1 => exact ⟨(List.append_nil _).symm, hidle, hcursor⟩
  | case2 h rest hlt ih =>
    have hdropped : fed .absorb (bytes (h :: rest)) s = fed .absorb (bytes rest) s :=
      congrArg (fed .absorb (bytes rest)) (taken_byte_of_idle_of_data hidle ((classOf_eq_data_iff_lt h).2 hlt) .absorb)
    rw [hdropped, parse_cons_of_lt hlt]
    exact ih hidle hcursor
  | case3 h hlt =>
    have hlatched := taken_byte_of_idle_of_status hidle (classOf_of_not_lt hlt) .absorb
    have hfed : fed .absorb (bytes [h]) s = taken .absorb (.byte h) s := rfl
    rw [parse_status hlt, hfed, hlatched]
    exact ⟨(List.append_nil _).symm, rfl, hcursor⟩
  | case4 h hlt x =>
    have hstored := foldl_taken_two_bytes hidle hcursor (classOf_of_not_lt hlt) x
    rw [parse_status_byte hlt x, fed, hstored]
    exact ⟨(List.append_nil _).symm, rfl, rfl⟩
  | case5 h hlt x y tail ih =>
    have hclass := classOf_of_not_lt hlt
    have hsplit : bytes (h :: x :: y :: tail) = bytes [h, x, y] ++ bytes tail := rfl
    obtain ⟨hemitted, hstate, hstop⟩ :=
      ih (fed_message_state hidle hcursor hclass x y) (fed_message_cursor hidle hcursor hclass x y)
    rw [fed_message_emitted hidle hcursor hclass, List.append_assoc] at hemitted
    rw [parse_message hlt x y tail, hsplit, fed_append]
    exact ⟨hemitted, hstate, hstop⟩

/-! ### What no event depends on (R6, R27) -/

/-- The two states differ at most in registers that are written again before an event shows them: the nibbles matter in
`ReceivingData` only, slot 0 while slot 1 is awaited, slot 1 never. -/
structure SameEventsAhead (s s' : State) : Prop where
  inv1 : s.Inv1
  state : s'.state = s.state
  cursor : s'.cursor = s.cursor
  emitted : s'.emitted = s.emitted
  status : s.state = .receivingData → s'.status = s.status
  channel : s.state = .receivingData → s'.channel = s.channel
  data0 : s.state = .receivingData → s.cursor = 1#1 → s'.data0 = s.data0

theorem SameEventsAhead.dispatched_eq {s s' : State} (h : SameEventsAhead s s') (hreceiving : s.state = .receivingData)
    (hcursor : s.cursor = 1#1) (b : Byte) : dispatched { s' with data1 := b } = dispatched { s with data1 := b } := by
  simp only [dispatched, h.status hreceiving, h.channel hreceiving, h.data0 hreceiving hcursor]

/-- Each case of a step from one of the states is met by the same case from the other. -/
theorem SameEventsAhead.takes {p : StatusMidmsg} {s s' t : State} {x : Input} (h : SameEventsAhead s s')
    (htakes : Takes p s x t) : ∃ t', Takes p s' x t' ∧ SameEventsAhead t t' := by
  have hinv1 := htakes.inv1 h.inv1
  cases htakes with
  | noByte => exact ⟨s', .noByte, h⟩
  | reset => exact ⟨_, .reset, hinv1, rfl, rfl, h.emitted, nofun, nofun, nofun⟩
  | latched hidle hclass =>
    exact ⟨_, .latched (h.state.trans hidle) hclass, hinv1, rfl, h.cursor, h.emitted, fun _ => rfl, fun _ => rfl,
      fun _ hone => nomatch (h.inv1 hidle).symm.trans hone⟩
  | dropped hidle hclass => exact ⟨s', .dropped (h.state.trans hidle) hclass, h⟩
  | stored hreceiving hcursor hclass =>
    exact ⟨_, .stored (h.state.trans hreceiving) (h.cursor.trans hcursor) hclass, hinv1, h.state, rfl, h.emitted,
      h.status, h.channel, fun _ _ => rfl⟩
  | completed hreceiving hcursor hclass =>
    exact ⟨_, .completed (h.state.trans hreceiving) (h.cursor.trans hcursor) hclass, hinv1, rfl, rfl,
      congrArg₂ _ h.emitted (h.dispatched_eq hreceiving hcursor _), nofun, nofun, nofun⟩
  | restarted hpolicy hreceiving hclass =>
    exact ⟨_, .restarted hpolicy (h.state.trans hreceiving) hclass, hinv1, h.state, rfl, h.emitted, fun _ => rfl,
      fun _ => rfl, nofun⟩

theorem SameEventsAhead.after_fed {s s' : State} (h : SameEventsAhead s s') (p : StatusMidmsg) (xs : List Input) :
    SameEventsAhead (fed p xs s) (fed p xs s') := by
  induction xs generalizing s s' with
  | nil => exact h
  | cons x xs ih =>
    obtain ⟨t', htakes', hnext⟩ := h.takes (takes_taken p s x)
    obtain rfl := htakes'.eq
    exact ih hnext

/-! ### Three bytes for each message (R70, R90) -/

/-- How many bytes of a message under way have been received. -/
def bytesHeld (s : State) : Nat :=
  match s.state with
  | .idle => 0
  | .receivingData => if s.cursor = 0#1 then 1 else 2

theorem bytesHeld_of_idle {s : State} (h : s.state = .idle) : bytesHeld s = 0 := by rw [bytesHeld, h]

theorem countP_isReport_dispatched (s : State) : (dispatched s).countP Event.isReport = 1 := by
  unfold dispatched
  split <;> rfl

/-- A byte is held, dropped, or completes a message with two held before it. -/
theorem Takes.reports_le {s t : State} {x : Input} (h : Takes .absorb s x t) (hinv1 : s.Inv1) :
    3 * (stepEvents x s).countP Event.isReport + bytesHeld t ≤ bytesHeld s + [x].countP Input.isByte := by
  cases h with
  | noByte => exact Nat.le_of_eq (Nat.zero_add _)
  | reset => exact Nat.zero_le _
  | latched hidle => simp [stepEvents_byte, bytesHeld, hidle, hinv1 hidle, Input.isByte]
  | dropped hidle => simp [stepEvents_byte, bytesHeld, hidle]
  | stored hreceiving hcursor => simp [stepEvents_byte, bytesHeld, hreceiving, hcursor, Input.isByte]
  | completed hreceiving hcursor =>
    simp [stepEvents_byte, bytesHeld, hreceiving, hcursor, Input.isByte, countP_isReport_dispatched]
  | restarted hpolicy => cases hpolicy

theorem fed_reports_le (xs : List Input) {s : State} (hinv1 : s.Inv1) :
    ∃ es : List Event, (fed .absorb xs s).emitted = s.emitted ++ es ∧
      3 * es.countP Event.isReport + bytesHeld (fed .absorb xs s) ≤ bytesHeld s + xs.countP Input.isByte := by
  induction xs generalizing s with
  | nil => exact ⟨[], (List.append_nil _).symm, Nat.le_of_eq (Nat.zero_add _)⟩
  | cons x xs ih =>
    have htakes := takes_taken .absorb s x
    obtain ⟨es, hemitted, hcount⟩ := ih (htakes.inv1 hinv1)
    have hfirst := htakes.reports_le hinv1
    refine ⟨stepEvents x s ++ es, ?_, ?_⟩
    · rw [fed_cons, hemitted, htakes.emitted_eq, List.append_assoc]
    · have hbytes : (x :: xs).countP Input.isByte = [x].countP Input.isByte + xs.countP Input.isByte :=
        List.countP_append (l₁ := [x])
      rw [fed_cons, List.countP_append, hbytes]
      omega

/-! ### The obligations -/

/-- Settles O28: induction along `parse`, with the message of three bytes as its one long case. -/
theorem streamReadingAgreesWithParse : Obligations.StreamReadingAgreesWithParse :=
  fun bs s hidle hcursor => ⟨_, feed_eq_fed (bytes bs) s, fed_bytes_parse bs hidle hcursor⟩

/-- Settles O29: both runs are the run on the input without its `None` elements. -/
theorem noByteElementsChangeNothing : Obligations.NoByteElementsChangeNothing := by
  refine ⟨exec_eq_effect .noByte, fun xs ys s hfilter => ?_⟩
  rw [feed_eq_fed, feed_eq_fed, ← fed_filter_noByte .absorb xs, hfilter, fed_filter_noByte]

/-- Settles O30: in (`Idle`, 0) no payload register is ahead of any event, and every step keeps the two runs so. -/
theorem unspecifiedValuesReachNoEvent : Obligations.UnspecifiedValuesReachNoEvent := by
  intro xs s s' hidle hcursor hidle' hcursor' hemitted
  have hnot : s.state ≠ .receivingData := fun hreceiving => nomatch hidle.symm.trans hreceiving
  have hsame : SameEventsAhead s s' :=
    { inv1 := fun _ => hcursor
      state := hidle'.trans hidle.symm
      cursor := hcursor'.trans hcursor.symm
      emitted := hemitted
      status := fun hreceiving => absurd hreceiving hnot
      channel := fun hreceiving => absurd hreceiving hnot
      data0 := fun hreceiving => absurd hreceiving hnot }
  have hend := hsame.after_fed .absorb xs
  exact ⟨_, _, feed_eq_fed xs s, feed_eq_fed xs s', hend.emitted, hend.state, hend.cursor⟩

/-- Settles O31: the three bytes fold to one message, whose events are those of its status byte's nibbles. -/
theorem threeBytesMakeOneMessage : Obligations.ThreeBytesMakeOneMessage := by
  intro h x y s hidle hcursor hbit
  rw [feed_eq_fed, fed_message hidle hcursor ((classOf_eq_status_iff h).2 hbit)]
  simp only [messageEvents, shiftRight_eq_nine_iff, List.append_assoc]
  rfl

/-- Settles O35: a message, data bytes that are dropped in `Idle`, and a second message. -/
theorem absorbedStatusByteDamageIsBounded : Obligations.AbsorbedStatusByteDamageIsBounded := by
  intro h x h' k u v ds s hidle hcursor hh _ hk hds
  have hclass : classOf h = .status := (classOf_eq_status_iff h).2 hh
  have hclassk : classOf k = .status := (classOf_eq_status_iff k).2 hk
  have hsplit : bytes (h :: x :: h' :: ds ++ [k, u, v]) = bytes [h, x, h'] ++ bytes ds ++ bytes [k, u, v] :=
    bytes_append _ _
  have hidle' := fed_message_state hidle hcursor hclass x h'
  have hcursor' := fed_message_cursor hidle hcursor hclass x h'
  refine ⟨_, feed_eq_fed _ s, ?_⟩
  rw [hsplit, fed_append, fed_append, fed_data_of_idle hidle' .absorb fun d hd => (classOf_eq_data_iff d).2 (hds d hd)]
  refine ⟨?_, fed_message_state hidle' hcursor' hclassk u v, fed_message_cursor hidle' hcursor' hclassk u v⟩
  rw [withPending_emitted, fed_message_emitted hidle' hcursor' hclassk, fed_message_emitted hidle hcursor hclass]

/-- Settles O37: silence folds to nothing, and each byte in `ReceivingData` moves the cursor or ends the message. -/
theorem twoBytesReturnToIdle : Obligations.TwoBytesReturnToIdle := by
  intro x y k l s hreceiving
  refine ⟨fun hcursor => ⟨⟨_, feed_eq_fed _ s, ?_⟩, _, feed_eq_fed _ s, ?_⟩, fun hcursor => ⟨_, feed_eq_fed _ s, ?_⟩⟩
  · simp [taken_byte_of_receivingData_zero hreceiving hcursor, hreceiving]
  · simp [taken_two_bytes_of_receivingData hreceiving hcursor, hcursor]
  · simp [taken_byte_of_receivingData_one hreceiving hcursor]

/-- Settles O38: silence folds to nothing, and the two bytes complete the message that was held. -/
theorem partialMessageIsHeldWithoutTimeout : Obligations.PartialMessageIsHeldWithoutTimeout := by
  intro k l x y s hreceiving hcursor
  constructor
  · rw [feed_eq_fed, fed_replicate_noByte]
    rfl
  · simp only [feed_eq_fed, fed_append, fed_cons, fed_nil, fed_replicate_noByte,
      taken_two_bytes_of_receivingData hreceiving hcursor, dispatched, List.append_assoc]
    rfl

/-- Settles O39: three times the reports and the bytes still held never exceed the bytes presented. -/
theorem eachMessageConsumesThreeBytes : Obligations.EachMessageConsumesThreeBytes := by
  intro xs s hidle hcursor
  obtain ⟨es, hemitted, hcount⟩ := fed_reports_le xs (s := s) fun _ => hcursor
  rw [bytesHeld_of_idle hidle] at hcount
  exact ⟨_, es, feed_eq_fed xs s, hemitted, by omega⟩

/-- Settles O40: a fold over a list appended is the one fold after the other, and every step appends to the log. -/
theorem inputIsProcessedInOrder : Obligations.InputIsProcessedInOrder := by
  intro xs ys s
  refine ⟨_, _, feed_eq_fed xs s, feed_eq_fed (xs ++ ys) s, ?_, emitted_isPrefix_fed xs s, ?_⟩
  · rw [feed_eq_fed, fed_withPending, withPending_withPending, fed_append]
  · rw [fed_append]
    exact emitted_isPrefix_fed ys (fed .absorb xs s)

/-- Settles O41: a run is the iterated step, which drops one element each time. -/
theorem everyInputElementIsConsumed : Obligations.EveryInputElementIsConsumed := by
  intro n s
  exact ⟨_, (core_run_eq_runUnder n s).trans (runUnder_eq_iterate .absorb n s), iterate_stepped_pending .absorb n s⟩

end Sys2Proof.Machine
end

section
/-! SUPPORT. The clocked run against the step-level run (`10_state.md` R34, R35), what RESET leaves (`70_reset_and_hazards.md`
section 1), and the phase before the first RESET (R143). The obligations of this part follow from them. -/

namespace Sys2Proof.Machine

/-! ### RESET (R140) and the phase before the first one (R143) -/

theorem taken_reset (p : StatusMidmsg) (s : State) : (taken p .reset s).state = .idle ∧ (taken p .reset s).cursor = 0#1 ∧
    (taken p .reset s).emitted = s.emitted ∧ (taken p .reset s).pending = s.pending := ⟨rfl, rfl, rfl, rfl⟩

/-- Only a `Reset` element ends the phase, and nothing brings it back. -/
theorem Takes.resetSeen_iff {p : StatusMidmsg} {s t : State} {x : Input} (h : Takes p s x t) :
    t.resetSeen = true ↔ s.resetSeen = true ∨ x = .reset := by
  cases h with
  | reset => exact iff_of_true rfl (.inr rfl)
  | _ => exact (or_iff_left nofun).symm

/-! ### Clock cycles (R34) -/

theorem elementOf_of_rst {p : InPins} (h : p.rst = true) : elementOf p = .reset := if_pos h

theorem clockEdge_eq_taken (p : InPins) (s : State) : clockEdge p s = .next (taken .absorb (elementOf p) s) :=
  step_eq_stepped _

theorem clockRun_cons (p : InPins) (ps : List InPins) (s : State) :
    clockRun (p :: ps) s = clockRun ps (taken .absorb (elementOf p) s) := by
  rw [clockRun, clockEdge_eq_taken]

theorem clockRun_eq_fed (ps : List InPins) (s : State) :
    clockRun ps s = .next (fed .absorb (ps.map elementOf) s) := by
  induction ps generalizing s with
  | nil => rfl
  | cons p ps ih => rw [clockRun_cons, ih, List.map_cons, fed_cons]

theorem fed_pending (p : StatusMidmsg) (xs : List Input) (s : State) : (fed p xs s).pending = s.pending :=
  fed_induction (P := fun t => t.pending = s.pending) (fun _ _ _ hkept htakes => htakes.pending.trans hkept) xs rfl

/-- A run of cycles with `rst` 1, one at least, leaves (`Idle`, 0), the log and the pending input (R141). -/
theorem clockRun_of_rst (p : InPins) (ps : List InPins) (s : State) (hrst : ∀ q ∈ p :: ps, q.rst = true) :
    ∃ t : State, clockRun (p :: ps) s = .next t ∧
      t.state = .idle ∧ t.cursor = 0#1 ∧ t.emitted = s.emitted ∧ t.pending = s.pending := by
  obtain ⟨hp, hps⟩ := List.forall_mem_cons.1 hrst
  rw [clockRun_cons, elementOf_of_rst hp]
  cases ps with
  | nil => exact ⟨_, rfl, taken_reset .absorb s⟩
  | cons q qs => exact clockRun_of_rst q qs (taken .absorb .reset s) hps

/-! ### The ports (R35) -/

/-- After the first RESET the sinks take from the ports in each cycle the events of its step. -/
theorem portEvents_outPins {s : State} (hseen : s.resetSeen = true) (p : InPins) (x : OutPins) :
    portEvents (outPins s p x) = stepEvents (elementOf p) s := by
  rw [outPins_of_resetSeen hseen, portEvents_specifiedPins]
  obtain ⟨rst, rxValid, b⟩ := p
  cases rst with
  | true => rfl
  | false =>
    cases rxValid with
    | false => rfl
    | true => simp only [reportStrobe_iff, elementOf_rxValid, stepEvents_byte, true_and]; rfl

theorem portTrace_cons (p : InPins) (x : OutPins) (cs : List (InPins × OutPins)) (s : State) :
    portTrace ((p, x) :: cs) s = portEvents (outPins s p x) ++ portTrace cs (taken .absorb (elementOf p) s) := by
  rw [portTrace, clockEdge_eq_taken]

/-- The elements sampled over a run of cycles. -/
theorem map_elementOf_fst (cs : List (InPins × OutPins)) :
    (cs.map Prod.fst).map elementOf = cs.map fun c => elementOf c.1 := List.map_map

theorem fed_emitted_eq_portTrace (cs : List (InPins × OutPins)) {s : State} (hseen : s.resetSeen = true) :
    (fed .absorb (cs.map fun c => elementOf c.1) s).emitted = s.emitted ++ portTrace cs s := by
  induction cs generalizing s with
  | nil => exact (List.append_nil _).symm
  | cons c cs ih =>
    obtain ⟨p, x⟩ := c
    have htakes := takes_taken .absorb s (elementOf p)
    rw [List.map_cons, fed_cons, ih (htakes.resetSeen_iff.2 (.inl hseen)), htakes.emitted_eq, portTrace_cons,
      portEvents_outPins hseen, List.append_assoc]

/-! ### The obligations -/

/-- Settles O36: RESET leaves (`Idle`, 0) and the log, data bytes fold to nothing in `Idle`, and a cycle with `rst` 1 is
sampled as `Reset` whatever `rx_valid` is. -/
theorem resetDiscardsPartialMessage : Obligations.ResetDiscardsPartialMessage := by
  refine ⟨fun ds s hds => ⟨_, feed_eq_fed _ s, ?_⟩, fun b s => ⟨rfl, _, clockEdge_eq_taken _ s, rfl, rfl, rfl⟩⟩
  obtain ⟨hidle, hcursor, hemitted, -⟩ := taken_reset .absorb s
  rw [fed_cons, fed_data_of_idle hidle .absorb fun d hd => (classOf_eq_data_iff d).2 (hds d hd)]
  exact ⟨hemitted, hidle, hcursor⟩

/-- Settles O47: a clocked run is the fold over its sampled elements; after the first RESET the ports show the events of
each step, and a first cycle with `rst` 1 is a step that emits none. -/
theorem portTraceIsTheEventLog : Obligations.PortTraceIsTheEventLog := by
  constructor
  · intro cs s hpending
    have hrun := clockRun_eq_fed (cs.map Prod.fst) s
    rw [map_elementOf_fst] at hrun
    have hfed : (fed .absorb (cs.map fun c => elementOf c.1) s).pending = [] := (fed_pending .absorb _ s).trans hpending
    refine ⟨_, hrun, ?_, fed_emitted_eq_portTrace cs⟩
    rw [feed_eq_fed, ← hfed, withPending_self]
  · intro p cs s hrst
    have hrun := (clockRun_cons p (cs.map Prod.fst) s).trans (clockRun_eq_fed _ _)
    rw [map_elementOf_fst, elementOf_of_rst hrst] at hrun
    have hedge := clockEdge_eq_taken p s
    rw [elementOf_of_rst hrst] at hedge
    exact ⟨_, _, hedge, hrun, fed_emitted_eq_portTrace cs rfl⟩

/-- Settles O48: each cycle with `rst` 1 is sampled as `Reset`, which emits nothing on the ports or in the log. -/
theorem resetPinHasPriorityAndMayBeHeld : Obligations.ResetPinHasPriorityAndMayBeHeld := by
  intro p ps s hrst
  refine ⟨clockRun_of_rst p ps s hrst, fun q hq => ?_, fun hseen q hq x => ?_⟩
  · rw [clockEdge_eq_taken, clockEdge_eq_taken, elementOf_of_rst (hrst q hq), elementOf_rst]
  · rw [portEvents_outPins hseen, elementOf_of_rst (hrst q hq), stepEvents]

/-- Settles O50: before the first RESET the ports show the value given for them, and of the cases of a step RESET alone
ends that phase. -/
theorem outputsAreUnspecifiedUntilFirstReset : Obligations.OutputsAreUnspecifiedUntilFirstReset := by
  refine ⟨fun s p hseen o => ⟨o, if_neg (Bool.not_eq_true _ ▸ hseen)⟩, rfl, rfl, fun q s => ?_⟩
  have htakes := takes_of_stepUnder (stepUnder_eq_stepped q s)
  refine ⟨_, stepUnder_eq_stepped q s, htakes.resetSeen_iff, fun hreset => ?_⟩
  rw [stepped_eq_taken, hreset]
  exact ⟨rfl, rfl⟩

end Sys2Proof.Machine
end

section
/-! SUPPORT. Several decoders (`10_state.md` R38, `60_exceptions.md` R129). The obligation of this part follows. -/

namespace Sys2Proof.Machine

theorem stepInstance_of_none {k : Nat} {bank : List State} (h : bank[k]? = none) :
    stepInstance k bank = .next bank := by
  rw [stepInstance, h]

theorem stepInstance_of_some {k : Nat} {bank : List State} {s : State} (h : bank[k]? = some s) :
    stepInstance k bank = .next (bank.set k (stepped .absorb s)) := by
  simp only [stepInstance, h, step_eq_stepped]

/-- Settles O49: the bank changes at position `k` only, if that is one of its positions. -/
theorem instancesDoNotInteract : Obligations.InstancesDoNotInteract := by
  intro k bank
  cases h : bank[k]? with
  | none => exact ⟨bank, stepInstance_of_none h, rfl, fun _ _ => rfl, nofun⟩
  | some s =>
    refine ⟨_, stepInstance_of_some h, List.length_set, fun j hj => List.getElem?_set_ne hj.symm, fun u hu => ?_⟩
    cases hu
    obtain ⟨hlt, -⟩ := List.getElem?_eq_some_iff.1 h
    exact ⟨_, step_eq_stepped s, List.getElem?_set_self hlt⟩

end Sys2Proof.Machine
end

section
/-! SUPPORT. Runs under the variant `restart` (`42_variant_restart.md` R115 to R118) beside those under `absorb`. The
obligations of this part follow from them. -/

namespace Sys2Proof.Machine

/-! ### Bytes of class `Data` -/

/-- A byte that is no status byte in mid-message is taken alike under both policies (R115). -/
theorem taken_byte_restart_eq_absorb {s : State} {b : Byte} (h : s.state = .idle ∨ b < 0x80#8) :
    taken .restart (.byte b) s = taken .absorb (.byte b) s := by
  cases hstate : s.state with
  | idle => rw [taken, taken, hstate]; rfl
  | receivingData =>
    have hlt : b < 0x80#8 := h.resolve_left fun hidle => nomatch hstate.symm.trans hidle
    rw [taken_of_stored hstate (.inr ((classOf_eq_data_iff_lt b).2 hlt)), taken_of_stored hstate (.inl rfl)]

theorem taken_byte_of_receivingData_zero_of_data {s : State} {b : Byte} (hreceiving : s.state = .receivingData)
    (hcursor : s.cursor = 0#1) (hclass : classOf b = .data) (p : StatusMidmsg) :
    taken p (.byte b) s = { s with data0 := b, cursor := 1#1 } :=
  (Takes.stored hreceiving hcursor (.inr hclass)).eq.symm

/-! ### Status bytes -/

/-- Under `restart` a status byte starts a message whatever the sequencing state (R82, R116). -/
theorem taken_restart_of_status {s : State} {b : Byte} (hinv1 : s.Inv1) (hclass : classOf b = .status) :
    taken .restart (.byte b) s = { s with
      status := highNibble b, channel := lowNibble b, state := .receivingData, cursor := 0#1 } := by
  cases hstate : s.state with
  | idle => rw [taken_byte_of_idle_of_status hstate hclass, ← hinv1 hstate]
  | receivingData => rw [taken_of_restarted hstate hclass, ← hstate]

/-- After a run of status bytes the last one's nibbles are latched in (`ReceivingData`, 0) (R118 (c)). -/
theorem fed_restart_of_status {bs : List Byte} {b : Byte} (hbs : ∀ d ∈ bs, classOf d = .status)
    (hb : classOf b = .status) {s : State} (hinv1 : s.Inv1) : fed .restart (bytes (bs ++ [b])) s = { s with
      status := highNibble b, channel := lowNibble b, state := .receivingData, cursor := 0#1 } := by
  induction bs generalizing s with
  | nil => exact taken_restart_of_status hinv1 hb
  | cons d ds ih =>
    obtain ⟨hd, hds⟩ := List.forall_mem_cons.1 hbs
    have hsplit : fed .restart (bytes (d :: ds ++ [b])) s =
      fed .restart (bytes (ds ++ [b])) (taken .restart (.byte d) s) := rfl
    rw [hsplit, taken_restart_of_status hinv1 hd]
    exact ih hds nofun

/-! ### Runs, element by element -/

theorem feedUnder_cons (p : StatusMidmsg) (x : Input) (xs : List Input) (s : State) :
    feedUnder p (x :: xs) s = feedUnder p xs (taken p x s) := by
  rw [feedUnder_eq_fed, feedUnder_eq_fed, fed_cons]

/-- The condition of R115, element by element: the first is taken alike under both policies, and the rest meets the
condition after it. -/
theorem noStatusMidMessage_cons {x : Input} {xs : List Input} {s : State} (h : noStatusMidMessage (x :: xs) s = true) :
    taken .restart x s = taken .absorb x s ∧ noStatusMidMessage xs ((taken .absorb x s).withPending []) = true := by
  rw [noStatusMidMessage.eq_def, Bool.and_eq_true, feedUnder_eq_fed] at h
  obtain ⟨hfirst, hrest⟩ := h
  refine ⟨?_, hrest⟩
  cases x with
  | reset => rfl
  | noByte => rfl
  | byte b => exact taken_byte_restart_eq_absorb (of_decide_eq_true hfirst)

/-! ### The obligations -/

/-- Settles O42: induction over the input; each element is taken alike under both policies. -/
theorem policiesAgreeWithoutStatusMidMessage : Obligations.PoliciesAgreeWithoutStatusMidMessage := by
  intro xs s hno
  induction xs generalizing s with
  | nil => rfl
  | cons x xs ih =>
    obtain ⟨htaken, hrest⟩ := noStatusMidMessage_cons hno
    rw [feedUnder_cons, feedUnder_cons, htaken]
    exact ih ((taken .absorb x s).withPending []) hrest

/-- Settles O43: the fold over status bytes keeps only the last one's nibbles. -/
theorem restartHoldsThroughStatusBytes : Obligations.RestartHoldsThroughStatusBytes := by
  intro bs b s hinv1 hbs hb
  rw [feedUnder_eq_fed, fed_restart_of_status (fun d hd => (classOf_eq_status_iff d).2 (hbs d hd))
    ((classOf_eq_status_iff b).2 hb) hinv1]
  rfl

/-- Settles O44: under `absorb` the stream is one message; under `restart` its third byte, of class `Status`, abandons
the message that the first two began. -/
theorem exampleStreamUnderBothPolicies : Obligations.ExampleStreamUnderBothPolicies := by
  intro s hidle hcursor
  constructor
  · rw [feedUnder_eq_fed, fed_message hidle hcursor (by decide)]
    rfl
  · have hsplit : fed .restart (bytes [0x90#8, 0x3C#8, 0x91#8]) s = taken .restart (.byte 0x91#8)
        (taken .restart (.byte 0x3C#8) (taken .restart (.byte 0x90#8) s)) := rfl
    rw [feedUnder_eq_fed, hsplit, taken_restart_of_status (fun _ => hcursor) rfl,
      taken_byte_of_receivingData_zero_of_data (b := 0x3C#8) rfl rfl rfl, taken_of_restarted rfl rfl, hcursor]
    rfl

end Sys2Proof.Machine
end
